-- ==== Sys2Proof/Word.lean ====
section
/-! DEFINITION. The two word types of the block: the byte of the host port and of the transport port
(spec/00_scope.md R10), and the 16-bit raw temperature word (R6, `TEMP_WIDTH`). -/

namespace Sys2Proof

/-- An 8-bit value (R10: "An 8-bit value is a byte"). -/
abbrev Byte := BitVec 8

/-- The 16-bit raw temperature word (R6 `TEMP_WIDTH`, R160). -/
abbrev RawWord := BitVec 16

end Sys2Proof
end

