-- ==== Sys2Proof/Config.lean ====
section
/-! DEFINITION. The implementation parameters of spec/00_scope.md R6: the fixed ones as constants, the
OPEN ones (three bus command bytes, `TIE_MODE`) as the fields of `Config`, which every state carries. -/

namespace Sys2Proof

/-- How a tie is rounded when the temperature is shown in tenths (R6 and R164, `TIE_MODE`). -/
inductive TieMode where
  | halfEven
  | halfAway
  deriving DecidableEq, Repr

/-- The parameters R6 leaves OPEN; "A model must take them as arguments" (R75).
They are fixed before reset and do not change while the block runs (R242). -/
structure Config where
  /-- `CMD_SKIP_ROM` -/
  cmdSkipRom : Byte
  /-- `CMD_CONVERT_T` -/
  cmdConvertT : Byte
  /-- `CMD_READ_SCRATCHPAD` -/
  cmdReadScratchpad : Byte
  /-- `TIE_MODE` -/
  tieMode : TieMode
  deriving DecidableEq, Repr

/-- The defaults R6 lists for the OPEN parameters. DESIGN CHOICE (notes/assumptions/1.md): `State.reset`
carries them; no statement rests on them. -/
def Config.default : Config :=
  { cmdSkipRom := 0xCC, cmdConvertT := 0x44, cmdReadScratchpad := 0xBE, tieMode := .halfEven }

/-- `SP_LEN`: bytes of the scratchpad reply. -/
abbrev spLen : Nat := 9

/-- `DISP_CAP`: bytes of the display buffer. -/
abbrev dispCap : Nat := 16

/-- `CRC_POLY_REFLECTED`. -/
abbrev crcPoly : Byte := 0x8C

/-- `CRC_INIT`. -/
abbrev crcInit : Byte := 0x00

/-- `UNIT[0]`, the degree glyph (R34). -/
abbrev unitGlyph : Byte := 0xDF

/-- `UNIT[1]`, the letter C (R34). -/
abbrev unitLetter : Byte := 0x43

/-- `CONV_WAIT_MS`, the host's duty of R245. -/
abbrev convWaitMs : Nat := 1000

/-- The number of host byte addresses, `HOST_ADDR_WIDTH` = 6 bits (R50). -/
abbrev hostSpace : Nat := 64

end Sys2Proof
end

