-- ==== Sys2Proof/Syntax.lean ====
section
/-! DEFINITION. What the block is given and what it gives: transport requests and responses
(spec/30_encoding.md R76, R77), the host agent's operations (R83, R84), and `Instr`, one constructor per
row of the opcode map R79. -/

namespace Sys2Proof

/-- A transport response (R77). -/
inductive Response where
  /-- kind 0, `R_PRESENCE(p)`: `true` when a presence pulse was seen -/
  | presence (p : Bool)
  /-- kind 1, `R_ACK` -/
  | ack
  /-- kind 2, `R_DATA(b)` -/
  | data (b : Byte)
  /-- kind 3, `R_FAULT` -/
  | fault
  deriving DecidableEq, Repr

/-- A transport request (R76). Kind 3 is never issued, so it has no constructor. -/
inductive Request where
  /-- kind 0, `T_RESET` -/
  | tReset
  /-- kind 1, `T_WRITE` -/
  | tWrite (b : Byte)
  /-- kind 2, `T_READ` -/
  | tRead
  deriving DecidableEq, Repr

/-- One operation of the host agent's program, in the notation of R83 and R84. An address is a plain number,
so that an access outside the 64 addresses can be written down and is refused (R52). -/
inductive HostOp where
  /-- `RD <addr>`: `MemRead(addr, 1)` -/
  | rd (a : Nat)
  /-- `WR <addr>, <byte>`: `MemWrite(addr, 1, v)` -/
  | wr (a : Nat) (v : Byte)
  /-- `WAIT_MS <n>`: real time passing at the host; no step of the block -/
  | waitMs (n : Nat)
  /-- `POLL`: `RD STATUS`, repeated until bit 0 of the result is 0 -/
  | poll
  /-- the end of `GET_TEMP`: `RD DISP0` to `RD DISP(DLEN-1)`, DLEN being the byte the host read last -/
  | rdText
  deriving DecidableEq, Repr

/-- The pseudo-operation `START` of R84. -/
def HostOp.start : HostOp := .wr 0x00 0x01

/-- The pseudo-operation `READ` of R84. -/
def HostOp.read : HostOp := .wr 0x00 0x02

/-- The pseudo-operation `NOP_CMD` of R84. -/
def HostOp.nopCmd : HostOp := .wr 0x00 0x00

/-- The pseudo-operation `GET_TEMP` of R84. -/
def HostOp.getTemp : List HostOp := [.rd 0x02, .rd 0x03, .rd 0x06, .rdText]

/-- The rows of R79. A host command takes no operand (R82). A bus row is the step in which the engine consumes
the response to the request of that row; its one operand is the response (R122 to R125, R141). -/
inductive Instr where
  /-- `NONE`, CTRL with `v[1:0]` = 0 (R102) -/
  | cmdNone
  /-- `START`, CTRL with `v[1:0]` = 1 (R103) -/
  | start
  /-- `READ`, CTRL with `v[1:0]` = 2 (R104) -/
  | read
  /-- `ILLEGAL`, CTRL with `v[1:0]` = 3 (R105) -/
  | illegal
  /-- `SKIP_ROM`, the response to `T_WRITE(CMD_SKIP_ROM)` (R123) -/
  | skipRom (r : Response)
  /-- `CONVERT_T`, the response to `T_WRITE(CMD_CONVERT_T)` (R124) -/
  | convertT (r : Response)
  /-- `READ_SCRATCHPAD`, the response to `T_WRITE(CMD_READ_SCRATCHPAD)` (R125) -/
  | readScratchpad (r : Response)
  /-- `T_RESET`, the response to the presence handshake (R122) -/
  | tReset (r : Response)
  /-- `T_READ`, the response to a byte read (R141) -/
  | tRead (r : Response)
  deriving DecidableEq, Repr

end Sys2Proof
end

