-- ==== Sys2Proof/WellFormed.lean ====
section
/-! DEFINITION. Well-formedness. Every term of `Instr` is well formed: a host command has no operand (R82) and
every response kind and value may answer every request (R121). The checks that can fail are on host operations
(R52: 64 addresses) and on the parameters (three bus bytes that tell the commands apart). -/

namespace Sys2Proof

/-- Every instruction term is well formed (R82, R121); one arm per constructor, so that a new one is looked at. -/
def Instr.wellFormed : Instr → Bool
  | .cmdNone => true
  | .start => true
  | .read => true
  | .illegal => true
  | .skipRom _ => true
  | .convertT _ => true
  | .readScratchpad _ => true
  | .tReset _ => true
  | .tRead _ => true

/-- A host access names one of the 64 addresses (R52). -/
def HostOp.wellFormed : HostOp → Bool
  | .rd a => decide (a < hostSpace)
  | .wr a _ => decide (a < hostSpace)
  | .waitMs _ => true
  | .poll => true
  | .rdText => true

/-- The three bus command bytes differ, so that a bus byte names one command. The engine never decodes a bus byte
(R79), so no step rests on this; the decoder's round trip does. -/
def Config.wellFormed (c : Config) : Bool :=
  c.cmdSkipRom != c.cmdConvertT && c.cmdSkipRom != c.cmdReadScratchpad &&
    c.cmdConvertT != c.cmdReadScratchpad

end Sys2Proof
end

