-- ==== Sys2Proof/Decode.lean ====
section
/-! DEFINITION. The decoder and the encoder. The block reads words at two ports: a CTRL byte at the host port
(spec/30_encoding.md R70, R71), and at the transport port the outstanding request's record with the response's record
behind it (R76, R77). Which port a word is at is no bit of the word, so the decoder takes it as an argument. -/

namespace Sys2Proof

/-- Where a word is read (R79's levels: host CTRL word, transport request). -/
inductive Port where
  | host
  | transport
  deriving DecidableEq, Repr

/-- Why the decoder refuses some bytes. -/
inductive Reject where
  /-- not one byte at the host port, or not two two-byte records at the transport port (R81) -/
  | wrongLength
  /-- request kind 3, "never issued" (R76) -/
  | neverIssued
  /-- a request kind R76 does not list -/
  | unknownRequest
  /-- a `T_WRITE` byte that is none of the three bus command codes (R75) -/
  | unknownBusByte
  /-- a response kind R77 does not list -/
  | unknownResponse
  /-- an `R_PRESENCE` whose value is more than one bit (R77) -/
  | badPresence
  deriving DecidableEq, Repr

/-- R70, R71: only `v[1:0]` is decoded; total. -/
def decodeCtrl (v : Byte) : Instr :=
  let cmd := v.extractLsb' 0 2
  if cmd = 0b00 then .cmdNone
  else if cmd = 0b01 then .start
  else if cmd = 0b10 then .read
  else .illegal

/-- R77: a response record (kind, value); the value of `R_ACK` and of `R_FAULT` is unused. -/
def decodeResponse (kind value : Byte) : Except Reject Response :=
  if kind = 0 then
    if value = 0 then .ok (.presence false)
    else if value = 1 then .ok (.presence true)
    else .error .badPresence
  else if kind = 1 then .ok .ack
  else if kind = 2 then .ok (.data value)
  else if kind = 3 then .ok .fault
  else .error .unknownResponse

/-- R75, R79: the bus command a `T_WRITE` byte is, with the response to it. -/
def decodeBusByte (c : Config) (b : Byte) (r : Response) : Except Reject Instr :=
  if b = c.cmdSkipRom then .ok (.skipRom r)
  else if b = c.cmdConvertT then .ok (.convertT r)
  else if b = c.cmdReadScratchpad then .ok (.readScratchpad r)
  else .error .unknownBusByte

/-- R76, R79: a request record (kind, byte), with the response to it; the byte of `T_RESET` and of `T_READ` is unused. -/
def decodeRequest (c : Config) (kind b : Byte) (r : Response) : Except Reject Instr :=
  if kind = 0 then .ok (.tReset r)
  else if kind = 1 then decodeBusByte c b r
  else if kind = 2 then .ok (.tRead r)
  else if kind = 3 then .error .neverIssued
  else .error .unknownRequest

/-- The instruction some bytes at a port are. -/
def decode (c : Config) (p : Port) (bs : List Byte) : Except Reject Instr :=
  match p, bs with
  | .host, [v] => .ok (decodeCtrl v)
  | .host, _ => .error .wrongLength
  | .transport, [qk, qb, rk, rv] =>
    match decodeResponse rk rv with
    | .ok r => decodeRequest c qk qb r
    | .error e => .error e
  | .transport, _ => .error .wrongLength

/-- R77: the record of a response; an unused value is written 0x00. -/
def encodeResponse : Response → List Byte
  | .presence p => [0, if p then 1 else 0]
  | .ack => [1, 0]
  | .data b => [2, b]
  | .fault => [3, 0]

/-- R76: the record of a request; an unused byte is 0x00. -/
def encodeRequest : Request → List Byte
  | .tReset => [0, 0]
  | .tWrite b => [1, b]
  | .tRead => [2, 0]

/-- The words of an instruction and the port they stand at; reserved bits are written 0 (R70). -/
def encode (c : Config) : Instr → Port × List Byte
  | .cmdNone => (.host, [0x00])
  | .start => (.host, [0x01])
  | .read => (.host, [0x02])
  | .illegal => (.host, [0x03])
  | .skipRom r => (.transport, encodeRequest (.tWrite c.cmdSkipRom) ++ encodeResponse r)
  | .convertT r => (.transport, encodeRequest (.tWrite c.cmdConvertT) ++ encodeResponse r)
  | .readScratchpad r => (.transport, encodeRequest (.tWrite c.cmdReadScratchpad) ++ encodeResponse r)
  | .tReset r => (.transport, encodeRequest .tReset ++ encodeResponse r)
  | .tRead r => (.transport, encodeRequest .tRead ++ encodeResponse r)

/-- Byte `i` of a number, byte 0 the least significant. -/
def byteOf (w i : Nat) : Byte := BitVec.ofNat 8 (w / 2 ^ (8 * i))

/-- The port and bytes a table word of `nbits` bits stands for. DESIGN CHOICE (notes/assumptions/2.md): a word of at most
8 bits is a CTRL byte; a longer one is a transport word, its first byte the request's kind, its second the request's
byte, its third and fourth the response's kind and value. -/
def tableWordBytes (nbits w : Nat) : Port × List Byte :=
  if nbits ≤ 8 then (.host, [byteOf w 0])
  else (.transport, [byteOf w 0, byteOf w 1, byteOf w 2, byteOf w 3])

/-- The instruction the decoder reads from a table word, with the default bus command bytes of R75. -/
def decodeTableWord (nbits w : Nat) : Option Instr :=
  let (p, bs) := tableWordBytes nbits w
  match decode Config.default p bs with
  | .ok i => some i
  | .error _ => none

end Sys2Proof
end

