-- ==== Sys2Proof/Machine/State.lean ====
section
/-! DEFINITION. The state of the machine as plain data: the block's registers (spec/10_state.md), the parameters it
was built with (spec/00_scope.md R6), and the three outside agents' own data (R8, R9): the host's program and what it
has read, the transport's list of requests it was given, and the schedule. `State.reset` is R37. -/

namespace Sys2Proof.Machine

/-- `STATE` (R22). The values 6 and 7 are never written, so they have no constructor. -/
inductive Phase where
  | idle
  | rst
  | txSkip
  | txFunc
  | rx
  | decode
  deriving DecidableEq, Repr

/-- `OP` (R23). The value 3 is never written, so it has no constructor. -/
inductive Op where
  | none
  | start
  | read
  deriving DecidableEq, Repr

/-- `RESULT` (R26). The values 6 and 7 are never written, so they have no constructor. -/
inductive Result where
  | none
  | ok
  | checksumMismatch
  | transportFault
  | illegalCommand
  | formatOverflow
  deriving DecidableEq, Repr

/-- What the schedule may choose next (R7, R8). A choice that is not enabled leaves the block as it is. -/
inductive Event where
  /-- the host agent takes its next operation -/
  | host
  /-- the engine takes its internal step, enabled when `STATE = DECODE` (R146) -/
  | engine
  /-- the transport answers with this response, its free choice (R121) -/
  | answer (r : Response)
  /-- the reset step (R240) -/
  | reset
  /-- another agent drives the transport; outside the model (R249) -/
  | secondDriver
  deriving DecidableEq, Repr

/-- One finished operation in the host agent's own record, with the byte a read returned. -/
inductive HostRec where
  | rd (a : Nat) (v : Byte)
  | wr (a : Nat) (v : Byte)
  | waited (ms : Nat)
  deriving DecidableEq, Repr

/-- The machine. No field has a function type. -/
structure State where
  /-- `STATE`, 3 bits (R22) -/
  phase : Phase
  /-- `OP`, 2 bits (R23) -/
  op : Op
  /-- `DONE` (R25) -/
  done : Bool
  /-- `RESULT`, 3 bits (R26) -/
  result : Result
  /-- `TVALID` (R27) -/
  tvalid : Bool
  /-- `SP[0..8]` (R28) -/
  sp : Vector Byte 9
  /-- `RXCNT` (R29) -/
  rxcnt : BitVec 4
  /-- `CRC` (R30) -/
  crc : Byte
  /-- `TRAW` (R31) -/
  traw : RawWord
  /-- `DISP[0..15]` (R32) -/
  disp : Vector Byte 16
  /-- `DLEN` (R33) -/
  dlen : BitVec 5
  /-- the parameters of R6; no step changes them (R66) -/
  cfg : Config
  /-- the host agent's program: its accesses still to come, in program order (R100) -/
  host : List HostOp
  /-- what the host agent has finished, oldest first -/
  hostLog : List HostRec
  /-- the requests the transport was given, oldest first (R11 `Issue`, R85) -/
  busTrace : List Request
  /-- the schedule: which agent steps next, and each of the transport's answers (R7, R9) -/
  events : List Event
  deriving DecidableEq, Repr

/-- Why the machine stops with a fault. No constructor: "No error stops the block" (R200), so no step faults. -/
inductive Fault where
  deriving DecidableEq, Repr

/-- Why a step is refused. -/
inductive Refusal where
  /-- raised only by an arm of `exec` whose instruction has no meaning yet; safe -/
  | notModelled (mnemonic : String)
  /-- raised by a host access at an address of 0x40 or more: "must refuse such an access, and not wrap it" (R52); safe -/
  | hostAddress (a : Nat)
  /-- raised when another agent drives the transport: "No rule here says what such a system does" (R249); safe -/
  | secondDriver
  /-- raised when an answer comes in `TX_FUNC` with `OP = NONE`, where R78 never evaluates `func`; no run reaches it; safe -/
  | undefinedFunction
  deriving DecidableEq, Repr

/-- The machine right after reset (R37, R240), with the default parameters of R6 (notes/assumptions/1.md), no
host program, nothing issued and nothing scheduled (notes/assumptions/3.md). -/
def State.reset : State :=
  { phase := .idle, op := .none, done := false, result := .none, tvalid := false,
    sp := Vector.replicate 9 0x00, rxcnt := 0, crc := 0x00, traw := 0x0000,
    disp := Vector.replicate 16 0x00, dlen := 0,
    cfg := Config.default, host := [], hostLog := [], busTrace := [], events := [] }

end Sys2Proof.Machine
end

