-- ==== Sys2Proof/Machine/Operands.lean ====
section
/-! DEFINITION. Values built from state: the codes of `STATE`, `OP` and `RESULT`, the outstanding request
(spec/41_bus_sequencer.md R120) and the raw temperature word (spec/30_encoding.md R82, spec/43_temperature_decode.md
R160, R161). -/

namespace Sys2Proof.Machine

/-- The code of `STATE` (R22). -/
def Phase.code : Phase → BitVec 3
  | .idle => 0
  | .rst => 1
  | .txSkip => 2
  | .txFunc => 3
  | .rx => 4
  | .decode => 5

/-- The code of `OP` (R23). -/
def Op.code : Op → BitVec 2
  | .none => 0
  | .start => 1
  | .read => 2

/-- The code of `RESULT` (R26). -/
def Result.code : Result → BitVec 3
  | .none => 0
  | .ok => 1
  | .checksumMismatch => 2
  | .transportFault => 3
  | .illegalCommand => 4
  | .formatOverflow => 5

/-- `func(OP)`, the function byte of `TX_FUNC` (R78); never evaluated with `OP = NONE`. -/
def func (c : Config) : Op → Option Byte
  | .none => none
  | .start => some c.cmdConvertT
  | .read => some c.cmdReadScratchpad

/-- `req(STATE, OP)`, the request outstanding on the transport port (R120). -/
def State.request (s : State) : Option Request :=
  match s.phase with
  | .idle => none
  | .rst => some .tReset
  | .txSkip => some (.tWrite s.cfg.cmdSkipRom)
  | .txFunc => (func s.cfg s.op).map .tWrite
  | .rx => some .tRead
  | .decode => none

/-- `{SP[1], SP[0]}` (R55, R82, R160). -/
def rawWord (sp : Vector Byte 9) : RawWord := sp[1] ++ sp[0]

/-- `s16(w)` (R11, R161). -/
def s16 (w : RawWord) : Int :=
  if w.toNat < 0x8000 then (w.toNat : Int) else (w.toNat : Int) - 0x10000

end Sys2Proof.Machine
end

