-- ==== Sys2Proof/Machine/Flags.lean ====
section
/-! DEFINITION. The flags and the words that show them: `BUSY` (spec/10_state.md R24), STATUS and FSM
(spec/30_encoding.md R72, R73). -/

namespace Sys2Proof.Machine

/-- `BUSY = (STATE != IDLE)`, computed, stored nowhere (R24). -/
def State.busy (s : State) : Bool := decide (s.phase ≠ .idle)

/-- `{0, RESULT[2:0], 0, TVALID, DONE, BUSY}` (R72). -/
def statusBits (result : Result) (tvalid done busy : Bool) : Byte :=
  0b0#1 ++ result.code ++ 0b0#1 ++ BitVec.ofBool tvalid ++ BitVec.ofBool done ++ BitVec.ofBool busy

/-- `{00, OP[1:0], 0, STATE[2:0]}` (R73). -/
def fsmBits (op : Op) (phase : Phase) : Byte :=
  0b00#2 ++ op.code ++ 0b0#1 ++ phase.code

/-- The STATUS word of a state. -/
def State.statusWord (s : State) : Byte := statusBits s.result s.tvalid s.done s.busy

/-- The FSM word of a state. -/
def State.fsmWord (s : State) : Byte := fsmBits s.op s.phase

end Sys2Proof.Machine
end

