-- ==== Sys2Proof/Machine/Ops.lean ====
section
/-! DEFINITION. The shared operations: reading the host register space (spec/20_memory.md R51), `Issue`, `clear_outputs` and
`finish` (spec/40_host_commands.md R101, R106), consuming a response (spec/41_bus_sequencer.md R127, R131) and the
reset step (spec/70_reset_and_hazards.md R240). An error is taken by `finish` (spec/60_exceptions.md R207); there is no
return from one (R209): the next accept clears it, by `clearOutputs`. -/

namespace Sys2Proof.Machine

/-- `MemRead(a, 1)`: the byte the host register map gives (R51, R74). CTRL and the reserved addresses read 0x00. -/
def State.memRead (s : State) (a : Nat) : Byte :=
  if a = 0x01 then s.statusWord
  else if a = 0x02 then s.traw.extractLsb' 0 8
  else if a = 0x03 then s.traw.extractLsb' 8 8
  else if a = 0x04 then s.crc
  else if a = 0x05 then s.rxcnt.setWidth 8
  else if a = 0x06 then s.dlen.setWidth 8
  else if a = 0x07 then s.fsmWord
  else if h : 0x08 ≤ a ∧ a ≤ 0x10 then s.sp[a - 0x08]
  else if h : 0x20 ≤ a ∧ a ≤ 0x2F then s.disp[a - 0x20]
  else if a = 0x30 then unitGlyph
  else if a = 0x31 then unitLetter
  else 0x00

/-- `STATE <- p`, issuing the new state's request (R11 `Issue`, R120). -/
def State.enter (p : Phase) (s : State) : State :=
  let t := { s with phase := p }
  { t with busTrace := t.busTrace ++ t.request.toList }

/-- `clear_outputs()` (R101). -/
def State.clearOutputs (s : State) : State :=
  { s with
    sp := Vector.replicate 9 0x00, rxcnt := 0, crc := crcInit, traw := 0x0000, tvalid := false,
    disp := Vector.replicate 16 0x00, dlen := 0, result := .none, done := false }

/-- `finish(code)` (R106): how a command ends, and how every error is taken (R200, R207). -/
def State.finish (code : Result) (s : State) : State :=
  { s with result := code, done := true, phase := .idle }

/-- The accept of START or READ (R103, R104). -/
def State.accept (o : Op) (s : State) : State :=
  ({ s.clearOutputs with op := o }).enter .rst

/-- The engine consumes a response (R127, R131): while the request is outstanding, the expected response does `k`
and any other ends the command with `TRANSPORT_FAULT`; with another state nothing is consumed. -/
def State.respond (outstanding expected : Bool) (k : State → State) (s : State) : State :=
  if outstanding then
    if expected then k s else s.finish .transportFault
  else s

/-- The reset step (R240): every register of the block at its reset value. The parameters (R242) and the outside
agents' data stay; the request is withdrawn, since `IDLE` has none (R241). -/
def State.takeReset (s : State) : State :=
  { State.reset with
    cfg := s.cfg, host := s.host, hostLog := s.hostLog, busTrace := s.busTrace, events := s.events }

/-- The host agent writes one finished operation into its record. -/
def State.record (r : HostRec) (s : State) : State :=
  { s with hostLog := s.hostLog ++ [r] }

end Sys2Proof.Machine
end

