-- ==== Sys2Proof/Machine/BusSequencer.lean ====
section
/-! DEFINITION. The bus steps of spec/41_bus_sequencer.md R122 to R125: the engine consumes response `r` to the
request its state has outstanding. -/

namespace Sys2Proof.Machine

/-- T_RESET (R122): a presence pulse goes on to `TX_SKIP`. -/
def execTReset (r : Response) (s : State) : Host.Outcome State Fault Refusal :=
  .next (s.respond (s.phase = .rst) (r = .presence true) (State.enter .txSkip))

/-- SKIP_ROM (R123): an acknowledge goes on to `TX_FUNC`. -/
def execSkipRom (r : Response) (s : State) : Host.Outcome State Fault Refusal :=
  .next (s.respond (s.phase = .txSkip) (r = .ack) (State.enter .txFunc))

/-- CONVERT_T (R124): an acknowledge finishes START with `OK`. -/
def execConvertT (r : Response) (s : State) : Host.Outcome State Fault Refusal :=
  .next (s.respond (s.phase = .txFunc ∧ s.op = .start) (r = .ack) (State.finish .ok))

/-- READ_SCRATCHPAD (R125): an acknowledge goes on to `RX`. -/
def execReadScratchpad (r : Response) (s : State) : Host.Outcome State Fault Refusal :=
  .next (s.respond (s.phase = .txFunc ∧ s.op = .read) (r = .ack) (State.enter .rx))

end Sys2Proof.Machine
end

