-- ==== Sys2Proof/Machine/HostCommands.lean ====
section
/-! DEFINITION. The host command family (spec/40_host_commands.md R102 to R105). A CTRL write is enabled only when
`STATE = IDLE`; otherwise it is held and nothing changes (R100). -/

namespace Sys2Proof.Machine

/-- NONE (R102): no state changes. -/
def execNone (s : State) : Host.Outcome State Fault Refusal := .next s

/-- START (R103). -/
def execStart (s : State) : Host.Outcome State Fault Refusal :=
  .next (if s.phase = .idle then s.accept .start else s)

/-- READ (R104). -/
def execRead (s : State) : Host.Outcome State Fault Refusal :=
  .next (if s.phase = .idle then s.accept .read else s)

/-- The reserved command (R105): outputs cleared, `OP <- NONE`, `ILLEGAL_COMMAND`, no bus traffic. -/
def execIllegal (s : State) : Host.Outcome State Fault Refusal :=
  .next (if s.phase = .idle then ({ s.clearOutputs with op := .none }).finish .illegalCommand else s)

end Sys2Proof.Machine
end

