-- ==== Sys2Proof/Machine/Crc.lean ====
section
/-! DEFINITION. The CRC-8 validator (spec/42_scratchpad_crc.md R142 to R145). -/

namespace Sys2Proof.Machine

/-- `crc8_bit(c, d)` (R142); `mix` is fresh in each iteration (spec/90_conflicts.md C2). -/
def crc8Bit (p : Byte × Byte) : Byte × Byte :=
  let mix := (p.1 ^^^ p.2) &&& 0x01
  let c := p.1 >>> 1
  (if mix = 1 then c ^^^ crcPoly else c, p.2 >>> 1)

/-- `n` bit steps. -/
def crc8Bits : Nat → Byte × Byte → Byte × Byte
  | 0, p => p
  | n + 1, p => crc8Bits n (crc8Bit p)

/-- `crc8_byte(c, d)` (R143). -/
def crc8Byte (c d : Byte) : Byte := (crc8Bits 8 (c, d)).1

/-- `crc8([b0, ..., bn-1])` (R144). -/
def crc8 (bs : List Byte) : Byte := bs.foldl crc8Byte crcInit

/-- A scratchpad is valid if and only if the CRC-8 of all nine bytes is 0x00 (R145). -/
def validScratchpad (sp : Vector Byte 9) : Bool := crc8 sp.toList == 0x00

end Sys2Proof.Machine
end

