-- ==== Sys2Proof/Machine/Temperature.lean ====
section
/-! DEFINITION. The fixed-point temperature decoder (spec/43_temperature_decode.md). Arithmetic is on exact
integers (R11). -/

namespace Sys2Proof.Machine

/-- `T = s / 16` degrees, the exact rational a raw word stands for (R162). The block holds no other encoding of it. -/
def temperature (w : RawWord) : Rat := (s16 w : Rat) / 16

/-- `tenths(s)`: |T| in tenths of a degree, rounded (R164). -/
def tenths (mode : TieMode) (s : Int) : Nat :=
  let m := s.natAbs
  let n := 5 * m
  let q := n / 8
  let r := n % 8
  if r > 4 then q + 1
  else if r = 4 then
    match mode with
    | .halfAway => q + 1
    | .halfEven => q + q % 2
  else q

/-- The ASCII byte of a decimal digit (R165). -/
def digit (d : Nat) : Byte := BitVec.ofNat 8 (0x30 + d)

/-- The base-10 digits of `n` put before `acc`; `fuel` bounds how many. -/
def decimalAux : Nat → Nat → List Byte → List Byte
  | 0, _, acc => acc
  | fuel + 1, n, acc =>
    if n < 10 then digit n :: acc else decimalAux fuel (n / 10) (digit (n % 10) :: acc)

/-- `decimal(ip)`: the shortest base-10 ASCII form (R165). -/
def decimal (n : Nat) : List Byte := decimalAux (n + 1) n []

/-- `number_text(s)` (R165). -/
def numberText (mode : TieMode) (s : Int) : List Byte :=
  let t := tenths mode s
  let sign : List Byte := if s < 0 then [0x2D] else []
  sign ++ decimal (t / 10) ++ [0x2E, digit (t % 10)]

/-- The six bytes of "Temp: " (R12, R166). -/
def tempLabel : List Byte := [0x54, 0x65, 0x6D, 0x70, 0x3A, 0x20]

/-- `text(s)` (R166); its length is `L(s)`. -/
def text (mode : TieMode) (s : Int) : List Byte := tempLabel ++ numberText mode s

/-- `for j: DISP[from + j] <- x[j]`. -/
def writeDisp (disp : Vector Byte 16) (start : Nat) : List Byte → Vector Byte 16
  | [] => disp
  | b :: x => writeDisp (disp.setIfInBounds start b) (start + 1) x

/-- `decode_and_format()` (R169), over the capacity `cap` (R167). -/
def State.decodeAndFormat (cap : Nat) (s : State) : State :=
  let w := rawWord s.sp
  let x := text s.cfg.tieMode (s16 w)
  if x.length > cap then s.finish .formatOverflow
  else
    ({ s with
      traw := w, disp := writeDisp s.disp 0 x, dlen := BitVec.ofNat 5 x.length, tvalid := true }).finish .ok

end Sys2Proof.Machine
end

