-- ==== Sys2Proof/Machine/Scratchpad.lean ====
section
/-! DEFINITION. The scratchpad reader's receive step and the engine's check step (spec/42_scratchpad_crc.md R141,
R146). -/

namespace Sys2Proof.Machine

/-- One data byte received (R141); the test for 9 is on the count just written. In a state no run reaches, `RXCNT` past
8, no byte of `SP` is written (notes/assumptions/6.md). -/
def State.receive (b : Byte) (s : State) : State :=
  let count := s.rxcnt + 1
  ({ s with
    sp := s.sp.setIfInBounds s.rxcnt.toNat b, crc := crc8Byte s.crc b, rxcnt := count }).enter
    (if count = 9 then .decode else .rx)

/-- T_READ (R141): a data byte is stored; every other response is a fault. -/
def execTRead (r : Response) (s : State) : Host.Outcome State Fault Refusal :=
  match r with
  | .data b => .next (s.respond (s.phase = .rx) true (State.receive b))
  | .presence _ => .next (s.respond (s.phase = .rx) false id)
  | .ack => .next (s.respond (s.phase = .rx) false id)
  | .fault => .next (s.respond (s.phase = .rx) false id)

/-- The check step (R146), enabled when `STATE = DECODE`. -/
def State.checkStep (s : State) : State :=
  if s.phase = .decode then
    if s.crc = 0x00 then s.decodeAndFormat dispCap else s.finish .checksumMismatch
  else s

end Sys2Proof.Machine
end

