-- ==== Sys2Proof/Machine/Dispatch.lean ====
section
/-! DEFINITION. The dispatch of an instruction to its meaning, one arm per row of the opcode map
(spec/30_encoding.md R79). -/

namespace Sys2Proof.Machine

def exec (i : Instr) (s : State) : Host.Outcome State Fault Refusal :=
  match i with
  -- host CTRL words (spec/40_host_commands.md)
  | .cmdNone => Sys2Proof.Machine.execNone s
  | .start => Sys2Proof.Machine.execStart s
  | .read => Sys2Proof.Machine.execRead s
  | .illegal => Sys2Proof.Machine.execIllegal s
  -- bus bytes (spec/41_bus_sequencer.md)
  | .skipRom r => Sys2Proof.Machine.execSkipRom r s
  | .convertT r => Sys2Proof.Machine.execConvertT r s
  | .readScratchpad r => Sys2Proof.Machine.execReadScratchpad r s
  -- transport requests (spec/41_bus_sequencer.md, spec/42_scratchpad_crc.md)
  | .tReset r => Sys2Proof.Machine.execTReset r s
  | .tRead r => Sys2Proof.Machine.execTRead r s

end Sys2Proof.Machine
end

