-- ==== Sys2Proof/Machine/Turns.lean ====
section
/-! DEFINITION. One turn of each agent (spec/00_scope.md R8): the host's accesses (spec/20_memory.md R52 to R54,
spec/40_host_commands.md R100), the transport's answer (spec/41_bus_sequencer.md R121, R131), the engine's check
step and the reset step; and which words stand at the block's ports, for the decoder. -/

namespace Sys2Proof.Machine

/-- The last byte the host read, 0x00 before its first read. -/
def State.lastRead (s : State) : Byte :=
  s.hostLog.foldl (fun v r => match r with
    | .rd _ b => b
    | .wr _ _ => v
    | .waited _ => v) 0x00

/-- `RD DISP0` to `RD DISP(n-1)` (R84). -/
def textReads (n : Nat) : List HostOp := (List.range n).map fun j => .rd (0x20 + j)

/-- A host read (R52, R53): the byte goes into the host's record and nothing of the block changes. -/
def hostRead (a : Nat) (s : State) : Host.Outcome State Fault Refusal :=
  if a < hostSpace then .next (s.record (.rd a (s.memRead a))) else .refused (.hostAddress a)

/-- A host write (R52, R54, R100). A CTRL write while busy is held: the host's program keeps it. `rest` is
the host's program after it. -/
def hostWrite (a : Nat) (v : Byte) (rest : List HostOp) (s : State) : Host.Outcome State Fault Refusal :=
  if a < hostSpace then
    if a = 0x00 then
      if s.phase = .idle then exec (decodeCtrl v) (({ s with host := rest }).record (.wr a v))
      else .next s
    else .next (({ s with host := rest }).record (.wr a v))
  else .refused (.hostAddress a)

/-- One `RD STATUS` of `POLL` (R84): the operation stays until bit 0 reads 0. -/
def pollStatus (rest : List HostOp) (s : State) : State :=
  let v := s.memRead 0x01
  ({ s with host := if v.getLsbD 0 then .poll :: rest else rest }).record (.rd 0x01 v)

/-- The host takes its next operation, if it has one (R52, R100, R107). -/
def hostTurn (s : State) : Host.Outcome State Fault Refusal :=
  match s.host with
  | [] => .next s
  | .rd a :: rest => hostRead a { s with host := rest }
  | .wr a v :: rest => hostWrite a v rest s
  | .waitMs n :: rest => .next (({ s with host := rest }).record (.waited n))
  | .poll :: rest => .next (pollStatus rest s)
  | .rdText :: rest => .next { s with host := textReads s.lastRead.toNat ++ rest }

/-- The instruction a response is to the block, by the request its state has outstanding (R120, R131). -/
def State.awaiting (r : Response) (s : State) : Option Instr :=
  match s.phase with
  | .idle => none
  | .rst => some (.tReset r)
  | .txSkip => some (.skipRom r)
  | .txFunc =>
    match s.op with
    | .none => none
    | .start => some (.convertT r)
    | .read => some (.readScratchpad r)
  | .rx => some (.tRead r)
  | .decode => none

/-- The transport answers (R121). With `IDLE` or `DECODE` the response is dropped (R131). -/
def answerTurn (r : Response) (s : State) : Host.Outcome State Fault Refusal :=
  match s.awaiting r with
  | some i => exec i s
  | none => if s.phase = .txFunc then .refused .undefinedFunction else .next s

/-- The chosen agent takes its turn (R7, R8). -/
def turn (e : Event) (s : State) : Host.Outcome State Fault Refusal :=
  match e with
  | .host => hostTurn s
  | .engine => .next s.checkStep
  | .answer r => answerTurn r s
  | .reset => .next s.takeReset
  | .secondDriver => .refused .secondDriver

/-- The words at the block's ports that the next step runs: a CTRL byte the host's turn writes, or the outstanding
request's record with the record of the answer. `none`: the next step runs no instruction. -/
def State.fetch (s : State) : Option (Port × List Byte) :=
  match s.events with
  | .host :: _ =>
    match s.host with
    | .wr a v :: _ => if a = 0x00 ∧ s.phase = .idle then some (.host, [v]) else none
    | _ => none
  | .answer r :: _ => s.request.map fun q => (.transport, encodeRequest q ++ encodeResponse r)
  | _ => none

/-- What a step does around the instruction it runs: the schedule moves on, and at the host port the write
leaves the host's program for its record. -/
def State.advance (s : State) : State :=
  match s.events, s.host with
  | .host :: es, .wr a v :: rest => ({ s with events := es, host := rest }).record (.wr a v)
  | _ :: es, _ => { s with events := es }
  | [], _ => s

/-- `s` with instruction `i` at the port where the next step runs it. A host command is the host's next access, with the
block idle (R100); a bus row is the request its state has outstanding (R120) with its answer scheduled. A bus row
leaves an `OP` that can be in that state. -/
def State.placeInstr (i : Instr) (s : State) : State :=
  let hostWord (v : Byte) : State :=
    { s with phase := .idle, host := .wr 0x00 v :: s.host, events := .host :: s.events }
  let running : Op := if s.op = .none then .start else s.op
  match i with
  | .cmdNone => hostWord 0x00
  | .start => hostWord 0x01
  | .read => hostWord 0x02
  | .illegal => hostWord 0x03
  | .tReset r => { s with phase := .rst, op := running, events := .answer r :: s.events }
  | .skipRom r => { s with phase := .txSkip, op := running, events := .answer r :: s.events }
  | .convertT r => { s with phase := .txFunc, op := .start, events := .answer r :: s.events }
  | .readScratchpad r => { s with phase := .txFunc, op := .read, events := .answer r :: s.events }
  | .tRead r => { s with phase := .rx, op := .read, events := .answer r :: s.events }

/-- `s` with a table word where the next step meets it. A CTRL word is written as it is, reserved bits and all; a record that
is no request of the block comes from another driver of the transport (R67, R249). -/
def State.placeTableWord (nbits w : Nat) (s : State) : State :=
  match tableWordBytes nbits w with
  | (.host, bs) =>
    { s with phase := .idle, host := .wr 0x00 (bs.headD 0x00) :: s.host, events := .host :: s.events }
  | (.transport, _) =>
    match decodeTableWord nbits w with
    | some i => s.placeInstr i
    | none => { s with events := .secondDriver :: s.events }

end Sys2Proof.Machine
end

