-- ==== Sys2Proof/Safety.lean ====
section
/-! DEFINITION. What holds in every reachable state (spec/10_state.md R38 and the rules it is derived from), and the host's
duties as predicates on the host's own record (spec/70_reset_and_hazards.md R243 to R248). -/

namespace Sys2Proof.Machine

/-- The control invariant: R38's list, with what R22, R23, R26, R103 to R105 and R201 to R205 say of `OP` and `RESULT`. -/
structure State.Inv (s : State) : Prop where
  busy_done : s.phase ≠ .idle → s.done = false
  done_result : s.done = false ↔ s.result = .none
  busy_op : s.phase ≠ .idle → s.op ≠ .none
  rx_op : s.phase = .rx → s.op = .read
  decode_op : s.phase = .decode → s.op = .read
  decode_rxcnt : s.phase = .decode → s.rxcnt = 9
  rx_rxcnt : s.phase = .rx → s.rxcnt.toNat ≤ 8
  early : s.phase = .rst ∨ s.phase = .txSkip ∨ s.phase = .txFunc → s.rxcnt = 0 ∧ s.crc = 0x00
  tvalid_end : s.tvalid = true → s.phase = .idle ∧ s.done = true ∧ s.result = .ok ∧ s.op = .read
  tvalid_data : s.tvalid = true →
    s.rxcnt = 9 ∧ s.crc = 0x00 ∧ s.traw = rawWord s.sp ∧ 0 < s.dlen.toNat
  no_temperature : s.tvalid = false →
    s.traw = 0x0000 ∧ s.dlen = 0 ∧ s.disp = Vector.replicate 16 0x00
  ok_op : s.result = .ok → s.op = .start ∨ s.op = .read
  read_ok : s.result = .ok → s.op = .read → s.tvalid = true
  mismatch : s.result = .checksumMismatch → s.op = .read ∧ s.rxcnt = 9 ∧ s.crc ≠ 0x00
  fault_op : s.result = .transportFault → s.op ≠ .none
  illegal_op : s.result = .illegalCommand ↔ s.op = .none ∧ s.done = true
  no_overflow : s.result ≠ .formatOverflow

/-- The receive buffer in every reachable state: at most nine bytes received, `CRC` is the CRC-8 of those received, and the
bytes not received are 0x00 (R28, R29, R30, R148). -/
structure State.ScratchInv (s : State) : Prop where
  count : s.rxcnt.toNat ≤ 9
  crc_received : s.crc = crc8 (s.sp.toList.take s.rxcnt.toNat)
  rest_zero : ∀ i (h : i < 9), s.rxcnt.toNat ≤ i → s.sp[i] = 0x00

/-- The display buffer in every reachable state (R27, R32, R33): with `TVALID` it holds the text of `TRAW`, then zeros. -/
structure State.DisplayInv (s : State) : Prop where
  length : s.tvalid = true → s.dlen.toNat = (text s.cfg.tieMode (s16 s.traw)).length
  content : s.tvalid = true → ∀ j (h : j < 16), s.disp[j] = (text s.cfg.tieMode (s16 s.traw)).getD j 0x00

/-- How far the host has come towards a READ of a fresh conversion (R243, R245, R247). -/
inductive ConvStage where
  /-- no START accepted since the last READ -/
  | noStart
  /-- START accepted, its end not seen -/
  | started
  /-- the end of the START seen with `OK`, and so many ms waited since -/
  | ended (ms : Nat)
  /-- the START failed, was followed by another START, or its end can no longer be seen -/
  | unfounded
  deriving DecidableEq, Repr

/-- One host record moves the stage on. The end of a START is a STATUS read of 0x12 (R72, R246). -/
def ConvStage.after (c : ConvStage) (r : HostRec) : ConvStage :=
  match r with
  | .rd a v =>
    match c with
    | .noStart => .noStart
    | .started =>
      if a = 0x01 ∧ v.extractLsb' 0 2 = 0b10 then (if v = 0x12 then .ended 0 else .unfounded) else .started
    | .ended n => .ended n
    | .unfounded => .unfounded
  | .wr a v =>
    if a = 0x00 then
      match decodeCtrl v with
      | .start => if c = .noStart then .started else .unfounded
      | .read => .noStart
      | .illegal => if c = .started then .unfounded else c
      | .cmdNone => c
      | .skipRom _ => c
      | .convertT _ => c
      | .readScratchpad _ => c
      | .tReset _ => c
      | .tRead _ => c
    else c
  | .waited ms =>
    match c with
    | .noStart => .noStart
    | .started => .started
    | .ended n => .ended (n + ms)
    | .unfounded => .unfounded

/-- The stage a host's record has reached. -/
def convStage (log : List HostRec) : ConvStage := log.foldl ConvStage.after .noStart

/-- The premise of R245: a READ written now is after a completed conversion. The model carries it as a premise only,
since the block does not gate (spec/90_conflicts.md C6) and the sensor is not modelled (R9). -/
def ConversionPremise (log : List HostRec) : Prop :=
  ∃ ms, convStage log = .ended ms ∧ convWaitMs ≤ ms

/-- A command accepted by a CTRL write has ended (R246). -/
def State.ended (s : State) : Prop := s.phase = .idle ∧ s.done = true

/-- When the host may take a register as a temperature (R248). -/
def State.TemperatureUsable (s : State) : Prop := s.ended ∧ s.tvalid = true

/-- The response kind R131 expects for a request. -/
def expects : Request → Response → Bool
  | .tReset, r => decide (r = .presence true)
  | .tWrite _, r => decide (r = .ack)
  | .tRead, .presence _ => false
  | .tRead, .ack => false
  | .tRead, .data _ => true
  | .tRead, .fault => false

/-- The requests of a command, in order (R128). -/
def commandRequests (c : Config) : Op → List Request
  | .none => []
  | .start => [.tReset, .tWrite c.cmdSkipRom, .tWrite c.cmdConvertT]
  | .read => [.tReset, .tWrite c.cmdSkipRom, .tWrite c.cmdReadScratchpad] ++ List.replicate spLen .tRead

/-- The expected responses of a READ that receives these bytes (R104, R141). -/
def readScript (bs : List Byte) : List Response := [.presence true, .ack, .ack] ++ bs.map .data

/-- `n` steps, for claims about a whole command. -/
def run : Nat → State → Host.Outcome State Fault Refusal
  | 0, s => .next s
  | n + 1, s =>
    match step s with
    | .next t => run n t
    | .fault r => .fault r
    | .refused r => .refused r

/-- The number some ASCII decimal digits stand for. -/
def decimalValue (bs : List Byte) : Nat := bs.foldl (fun n b => 10 * n + (b.toNat - 0x30)) 0

/-- A scratchpad with bit `j` of byte `i` inverted. -/
def flipBit (sp : Vector Byte 9) (i : Fin 9) (j : Fin 8) : Vector Byte 9 :=
  sp.set i (sp[i] ^^^ (1#8 <<< j.val))

end Sys2Proof.Machine
end

