-- ==== Sys2Proof/Certificates/Slice0/Obligations.lean ====
section
/-! DEFINITION. The statements for the provers. Each one's docstring names the rule of spec/ it formalises. A next state is
written as the state before with the fields that change, so it says its own frame. -/

open Sys2Proof Sys2Proof.Machine

/-! ### Host commands (spec/40_host_commands.md) -/

/-- R102: NONE changes no state, whatever the ignored bits; while busy its write is held. -/
def Obligations.NoneChangesNothing : Prop :=
  ∀ (v : Byte) (s : State), v.extractLsb' 0 2 = 0b00 →
    decodeCtrl v = .cmdNone ∧ exec .cmdNone s = .next s ∧
      ∀ rest, s.phase ≠ .idle → s.host = .wr 0x00 v :: rest → hostTurn s = .next s

/-- R103, R104, the accept: outputs cleared, `OP` latched, `STATE <- RST` with `T_RESET` issued, nothing else. -/
def Obligations.StartAndReadAreAccepted : Prop :=
  ∀ (s : State), s.phase = .idle →
    ∀ p ∈ [(Instr.start, Op.start), (Instr.read, Op.read)],
      exec p.1 s = .next
        { s with
          phase := .rst, op := p.2, done := false, result := .none, tvalid := false,
          sp := Vector.replicate 9 0x00, rxcnt := 0, crc := 0x00, traw := 0x0000,
          disp := Vector.replicate 16 0x00, dlen := 0, busTrace := s.busTrace ++ [.tReset] }

/-- R105: the reserved command, whatever the ignored bits, clears the outputs and finishes at once with
`ILLEGAL_COMMAND`; `BUSY` stays 0, nothing is issued, STATUS reads 0x42 and FSM 0x00. -/
def Obligations.ReservedCommandFinishesIllegal : Prop :=
  ∀ (v : Byte) (s : State), v.extractLsb' 0 2 = 0b11 → s.phase = .idle →
    decodeCtrl v = .illegal ∧
    ∃ t, exec .illegal s = .next t ∧
      t = { s with
            op := .none, done := true, result := .illegalCommand, tvalid := false,
            sp := Vector.replicate 9 0x00, rxcnt := 0, crc := 0x00, traw := 0x0000,
            disp := Vector.replicate 16 0x00, dlen := 0 } ∧
      t.busy = false ∧ t.request = none ∧ t.statusWord = 0x42 ∧ t.fsmWord = 0x00

/-- R101: `clear_outputs` runs at every accepted START, READ and reserved command, and not for NONE. The reserved command's
`finish` then writes `RESULT` and `DONE` in the same step. -/
def Obligations.AcceptClearsOutputs : Prop :=
  ∀ (s : State), s.phase = .idle →
    (∀ i ∈ [Instr.start, Instr.read, Instr.illegal], ∃ t, exec i s = .next t ∧
      (∀ j (h : j < 9), t.sp[j] = 0x00) ∧ t.rxcnt = 0 ∧ t.crc = crcInit ∧ t.traw = 0x0000 ∧ t.tvalid = false ∧
      (∀ j (h : j < 16), t.disp[j] = 0x00) ∧ t.dlen = 0 ∧
      (i ≠ .illegal → t.result = .none ∧ t.done = false)) ∧
    exec .cmdNone s = .next s

/-- R106: `finish(code)` writes `RESULT`, `DONE` and `STATE`, so `BUSY` reads 0 and no request is outstanding, and
changes nothing else. -/
def Obligations.FinishEndsTheCommand : Prop :=
  ∀ (code : Result) (s : State),
    s.finish code = { s with result := code, done := true, phase := .idle } ∧
    (s.finish code).busy = false ∧ (s.finish code).request = none

/-- R100: while `STATE` is not `IDLE` a CTRL write is held: the host's turn changes nothing, whatever follows the write in
its program. The first host step with `STATE = IDLE` takes it unchanged, and dispatches on
`v[1:0]`. -/
def Obligations.CtrlWriteIsHeldWhileBusy : Prop :=
  ∀ (v : Byte) (rest : List HostOp) (es : List Event) (s : State),
    s.host = .wr 0x00 v :: rest → s.events = .host :: es →
    (s.phase ≠ .idle →
      step s = .next { s with events := es }) ∧
    (s.phase = .idle →
      ∀ p ∈ [(0b00#2, Instr.cmdNone), (0b01#2, Instr.start), (0b10#2, Instr.read), (0b11#2, Instr.illegal)],
        v.extractLsb' 0 2 = p.1 →
        step s = exec p.2 { s with events := es, host := rest, hostLog := s.hostLog ++ [.wr 0x00 v] })

/-! ### Encodings (spec/30_encoding.md) -/

/-- R70, R71: `CMD` selects the command, two CTRL words that differ only in `v[7:2]` are the same command, and CTRL reads
as 0x00. -/
def Obligations.CmdSelectsTheCommand : Prop :=
  (∀ v : Byte,
    (v.extractLsb' 0 2 = 0b00 → decodeCtrl v = .cmdNone) ∧ (v.extractLsb' 0 2 = 0b01 → decodeCtrl v = .start) ∧
    (v.extractLsb' 0 2 = 0b10 → decodeCtrl v = .read) ∧ (v.extractLsb' 0 2 = 0b11 → decodeCtrl v = .illegal)) ∧
  (∀ (cmd : BitVec 2) (x y : BitVec 6), decodeCtrl (x ++ cmd) = decodeCtrl (y ++ cmd)) ∧
  ∀ s : State, s.memRead 0x00 = 0x00

/-- Decoding the encoding of any instruction gives it back, with any response, under any parameters whose three bus
command bytes differ. -/
def Obligations.DecodeOfEncodeIsTheInstruction : Prop :=
  ∀ (c : Config) (i : Instr), c.wellFormed = true → i.wellFormed = true →
    decode c (encode c i).1 (encode c i).2 = .ok i

/-- Words written out from R71, R75, R76 and R77 decode to the instructions they stand for. The model's choices: the order of the
bytes of a transport word (notes/assumptions/2.md), the refusal of request kind 3, which is never issued
(notes/assumptions/8.md), and the decoder's refusal of a bus byte that is none of the three codes (notes/assumptions/16.md;
no bus byte is illegal to the engine, R79). -/
def Obligations.SampleWordsDecode : Prop :=
  decode Config.default .host [0b00000000] = .ok .cmdNone ∧
  decode Config.default .host [0b11111101] = .ok .start ∧
  decode Config.default .host [0b00000010] = .ok .read ∧
  decode Config.default .host [0b10000011] = .ok .illegal ∧
  decode Config.default .transport [1, 0xCC, 1, 0] = .ok (.skipRom .ack) ∧
  decode Config.default .transport [1, 0x44, 3, 0] = .ok (.convertT .fault) ∧
  decode Config.default .transport [1, 0xBE, 1, 0] = .ok (.readScratchpad .ack) ∧
  decode Config.default .transport [0, 0, 0, 1] = .ok (.tReset (.presence true)) ∧
  decode Config.default .transport [2, 0, 2, 0x50] = .ok (.tRead (.data 0x50)) ∧
  decode Config.default .transport [3, 0, 1, 0] = .error .neverIssued ∧
  decode Config.default .transport [1, 0x55, 1, 0] = .error .unknownBusByte

/-- When the words at the block's port decode to an instruction, the step is that instruction, after the schedule has moved
on and, at the host port, the write has left the host's program. At the transport port the three bus bytes differ: the engine
itself never decodes a bus byte (R79). The schedule and the layout of the ports' words are the model's choices
(notes/assumptions/2.md, 3.md). -/
def Obligations.StepRunsTheDecodedInstruction : Prop :=
  ∀ (s : State) (p : Port) (bs : List Byte) (i : Instr),
    s.fetch = some (p, bs) → decode s.cfg p bs = .ok i → (p = .transport → s.cfg.wellFormed = true) →
    step s = exec i s.advance

/-- R72, with the bits of R73: the layouts of STATUS and FSM, where the host reads them, their reset values, and the STATUS
values a host sees in a state that meets the invariant. -/
def Obligations.StatusAndFsmWords : Prop :=
  State.reset.statusWord = 0x00 ∧ State.reset.fsmWord = 0x00 ∧ ∀ s : State,
    s.memRead 0x01 = s.statusWord ∧ s.memRead 0x07 = s.fsmWord ∧
    s.statusWord.getLsbD 0 = decide (s.phase ≠ .idle) ∧ s.statusWord.getLsbD 1 = s.done ∧
    s.statusWord.getLsbD 2 = s.tvalid ∧ s.statusWord.getLsbD 3 = false ∧
    s.statusWord.extractLsb' 4 3 = s.result.code ∧ s.statusWord.getLsbD 7 = false ∧
    s.fsmWord.extractLsb' 0 3 = s.phase.code ∧ s.fsmWord.getLsbD 3 = false ∧
    s.fsmWord.extractLsb' 4 2 = s.op.code ∧ s.fsmWord.extractLsb' 6 2 = 0b00 ∧
    (s.Inv →
      (s.phase ≠ .idle → s.statusWord = 0x01) ∧
      (s.phase = .idle → s.done = false → s.statusWord = 0x00) ∧
      (s.phase = .idle → s.op = .read → s.result = .ok → s.statusWord = 0x16) ∧
      (s.phase = .idle → s.op = .start → s.result = .ok → s.statusWord = 0x12) ∧
      (s.phase = .idle → s.result = .checksumMismatch → s.statusWord = 0x22) ∧
      (s.phase = .idle → s.result = .transportFault → s.statusWord = 0x32) ∧
      (s.phase = .idle → s.result = .illegalCommand → s.statusWord = 0x42) ∧
      s.statusWord ∈ [0x00, 0x01, 0x16, 0x12, 0x22, 0x32, 0x42])

/-! ### The host register space (spec/20_memory.md) -/

/-- R51, R74: what each host address reads as, in every state and after reset. -/
def Obligations.HostRegisterMap : Prop :=
  (∀ s : State,
    s.memRead 0x00 = 0x00 ∧ s.memRead 0x01 = s.statusWord ∧ s.memRead 0x02 = s.traw.extractLsb' 0 8 ∧
    s.memRead 0x03 = s.traw.extractLsb' 8 8 ∧ s.memRead 0x04 = s.crc ∧ s.memRead 0x05 = s.rxcnt.zeroExtend 8 ∧
    s.memRead 0x06 = s.dlen.zeroExtend 8 ∧ s.memRead 0x07 = s.fsmWord ∧
    (∀ i (h : i < 9), s.memRead (0x08 + i) = s.sp[i]) ∧ (∀ a, 0x11 ≤ a → a ≤ 0x1F → s.memRead a = 0x00) ∧
    (∀ j (h : j < 16), s.memRead (0x20 + j) = s.disp[j]) ∧ s.memRead 0x30 = 0xDF ∧ s.memRead 0x31 = 0x43 ∧
    (∀ a, 0x32 ≤ a → a ≤ 0x3F → s.memRead a = 0x00)) ∧
  ∀ a, a < 64 → a ≠ 0x30 → a ≠ 0x31 → State.reset.memRead a = 0x00

/-- R52, R53, R54: a host step is a read, which returns the byte of the map and changes nothing a later read returns; a CTRL
write (R100); or a write that is dropped, without a fault or a stall. An address of 0x40 or more is refused, not
wrapped. -/
def Obligations.HostAccessSteps : Prop :=
  ∀ (s : State) (a : Nat) (v : Byte) (rest : List HostOp) (es : List Event), s.events = .host :: es →
    (s.host = .rd a :: rest → a < 0x40 → ∃ t, step s = .next t ∧
      t = { s with events := es, host := rest, hostLog := s.hostLog ++ [.rd a (s.memRead a)] } ∧
      ∀ b, t.memRead b = s.memRead b) ∧
    (s.host = .wr 0x00 v :: rest → s.phase = .idle →
      step s = exec (decodeCtrl v) { s with events := es, host := rest, hostLog := s.hostLog ++ [.wr 0x00 v] }) ∧
    (s.host = .wr a v :: rest → a ≠ 0x00 → a < 0x40 → ∃ t, step s = .next t ∧
      t = { s with events := es, host := rest, hostLog := s.hostLog ++ [.wr a v] } ∧
      ∀ b, t.memRead b = s.memRead b) ∧
    (s.host = .rd a :: rest ∨ s.host = .wr a v :: rest → 0x40 ≤ a → step s = .refused (.hostAddress a))

/-- The turns of the host agent's other operations (R83, R84): a wait is no step of the block; POLL reads STATUS once and stays
until bit 0 reads 0; the text reads are DISP0 to DISP(n-1), n the byte read last. -/
def Obligations.HostWaitPollAndTextTurns : Prop :=
  ∀ (s : State) (rest : List HostOp) (es : List Event), s.events = .host :: es →
    (∀ n, s.host = .waitMs n :: rest →
      step s = .next { s with events := es, host := rest, hostLog := s.hostLog ++ [.waited n] }) ∧
    (s.host = .poll :: rest →
      step s = .next
        { s with
          events := es, hostLog := s.hostLog ++ [.rd 0x01 s.statusWord]
          host := if s.phase = .idle then rest else .poll :: rest }) ∧
    (∀ before a b, s.host = .rdText :: rest → s.hostLog = before ++ [.rd a b] →
      step s = .next
        { s with events := es, host := ((List.range b.toNat).map fun j => .rd (0x20 + j)) ++ rest })

/-! ### The bus steps (spec/41_bus_sequencer.md) -/

/-- R120: the outstanding request is a function of `STATE` and `OP`, with `func` of R78. -/
def Obligations.OutstandingRequest : Prop :=
  ∀ s : State,
    (s.phase = .idle → s.request = none) ∧ (s.phase = .rst → s.request = some .tReset) ∧
    (s.phase = .txSkip → s.request = some (.tWrite s.cfg.cmdSkipRom)) ∧
    (s.phase = .txFunc → s.op = .start → s.request = some (.tWrite s.cfg.cmdConvertT)) ∧
    (s.phase = .txFunc → s.op = .read → s.request = some (.tWrite s.cfg.cmdReadScratchpad)) ∧
    (s.phase = .rx → s.request = some .tRead) ∧ (s.phase = .decode → s.request = none)

/-- R122: the presence handshake step. Without a presence pulse the block finishes with STATUS 0x32 (after an accept)
and no byte is sent. -/
def Obligations.HandshakeStep : Prop :=
  ∀ (s : State) (r : Response), s.phase = .rst →
    s.request = some .tReset ∧
    (r = .presence true →
      exec (.tReset r) s = .next
        { s with phase := .txSkip, busTrace := s.busTrace ++ [.tWrite s.cfg.cmdSkipRom] }) ∧
    (r ≠ .presence true →
      exec (.tReset r) s = .next { s with phase := .idle, done := true, result := .transportFault } ∧
      (s.Inv → State.statusWord { s with phase := .idle, done := true, result := .transportFault } = 0x32))

/-- R123: the skip ROM step; the function byte of `OP` is issued next. -/
def Obligations.SkipRomStep : Prop :=
  ∀ (s : State) (r : Response), s.phase = .txSkip →
    s.request = some (.tWrite s.cfg.cmdSkipRom) ∧
    (r = .ack → s.op = .start →
      exec (.skipRom r) s = .next
        { s with phase := .txFunc, busTrace := s.busTrace ++ [.tWrite s.cfg.cmdConvertT] }) ∧
    (r = .ack → s.op = .read →
      exec (.skipRom r) s = .next
        { s with phase := .txFunc, busTrace := s.busTrace ++ [.tWrite s.cfg.cmdReadScratchpad] }) ∧
    (r ≠ .ack →
      exec (.skipRom r) s = .next { s with phase := .idle, done := true, result := .transportFault })

/-- R124: the convert T step ends START with `OK` or `TRANSPORT_FAULT`. -/
def Obligations.ConvertTStep : Prop :=
  ∀ (s : State) (r : Response), s.phase = .txFunc → s.op = .start →
    s.request = some (.tWrite s.cfg.cmdConvertT) ∧
    exec (.convertT r) s = .next
      { s with phase := .idle, done := true, result := if r = .ack then .ok else .transportFault }

/-- R125: the read scratchpad step; after an accept `RXCNT` and `CRC` are still 0. -/
def Obligations.ReadScratchpadStep : Prop :=
  ∀ (s : State) (r : Response), s.phase = .txFunc → s.op = .read →
    s.request = some (.tWrite s.cfg.cmdReadScratchpad) ∧
    (r = .ack →
      exec (.readScratchpad r) s = .next { s with phase := .rx, busTrace := s.busTrace ++ [.tRead] }) ∧
    (r ≠ .ack →
      exec (.readScratchpad r) s = .next { s with phase := .idle, done := true, result := .transportFault }) ∧
    (s.Inv → s.rxcnt = 0 ∧ s.crc = 0x00)

/-- R141: the receive step. Every byte value is data; the ninth byte goes to `DECODE` and issues nothing; a fault leaves
the bytes received, zeros behind them, and their CRC. -/
def Obligations.ReceiveStep : Prop :=
  ∀ (s : State) (r : Response), s.phase = .rx →
    s.request = some .tRead ∧
    (∀ (b : Byte) (h : s.rxcnt.toNat < 8), r = .data b →
      exec (.tRead r) s = .next
        { s with
          sp := s.sp.set s.rxcnt.toNat b, crc := crc8Byte s.crc b, rxcnt := s.rxcnt + 1
          busTrace := s.busTrace ++ [.tRead] }) ∧
    (∀ b : Byte, s.rxcnt = 8 → r = .data b →
      exec (.tRead r) s = .next
        { s with sp := s.sp.set 8 b, crc := crc8Byte s.crc b, rxcnt := 9, phase := .decode }) ∧
    ((∀ b, r ≠ .data b) →
      exec (.tRead r) s = .next { s with phase := .idle, done := true, result := .transportFault } ∧
      (s.ScratchInv →
        s.crc = crc8 (s.sp.toList.take s.rxcnt.toNat) ∧
          ∀ i (h : i < 9), s.rxcnt.toNat ≤ i → s.sp[i] = 0x00))

/-- A bus row does nothing in a state that does not have its request outstanding (R131: no response is consumed; the model's choice
for the other states, notes/assumptions/5.md), and a host command does nothing while busy (the model's choice for `exec` alone, the
same entry; the machine holds the CTRL write, R100). -/
def Obligations.OnlyTheOutstandingRequestIsAnswered : Prop :=
  ∀ (s : State) (r : Response),
    (s.phase ≠ .rst → exec (.tReset r) s = .next s) ∧ (s.phase ≠ .txSkip → exec (.skipRom r) s = .next s) ∧
    (s.phase ≠ .txFunc ∨ s.op ≠ .start → exec (.convertT r) s = .next s) ∧
    (s.phase ≠ .txFunc ∨ s.op ≠ .read → exec (.readScratchpad r) s = .next s) ∧
    (s.phase ≠ .rx → exec (.tRead r) s = .next s) ∧
    (s.phase ≠ .idle → ∀ i ∈ [Instr.cmdNone, Instr.start, Instr.read, Instr.illegal], exec i s = .next s)

/-- R131: the effect of each response in each state, as a step of the machine; with `IDLE` or `DECODE` it is dropped. -/
def Obligations.ResponseTable : Prop :=
  ∀ (s : State) (r : Response) (es : List Event), s.events = .answer r :: es →
    ∀ fault, fault = { s with events := es, phase := .idle, done := true, result := .transportFault } →
    (s.phase = .rst →
      step s = if r = .presence true
        then .next { s with events := es, phase := .txSkip, busTrace := s.busTrace ++ [.tWrite s.cfg.cmdSkipRom] }
        else .next fault) ∧
    (s.phase = .txSkip → s.op = .start →
      step s = if r = .ack
        then .next { s with events := es, phase := .txFunc, busTrace := s.busTrace ++ [.tWrite s.cfg.cmdConvertT] }
        else .next fault) ∧
    (s.phase = .txSkip → s.op = .read →
      step s = if r = .ack
        then .next
          { s with events := es, phase := .txFunc, busTrace := s.busTrace ++ [.tWrite s.cfg.cmdReadScratchpad] }
        else .next fault) ∧
    (s.phase = .txFunc → s.op = .start →
      step s = if r = .ack
        then .next { s with events := es, phase := .idle, done := true, result := .ok }
        else .next fault) ∧
    (s.phase = .txFunc → s.op = .read →
      step s = if r = .ack
        then .next { s with events := es, phase := .rx, busTrace := s.busTrace ++ [.tRead] }
        else .next fault) ∧
    (s.phase = .rx → ∀ b, r = .data b → step s = exec (.tRead (.data b)) { s with events := es }) ∧
    (s.phase = .rx → (∀ b, r ≠ .data b) → step s = .next fault) ∧
    (s.phase = .idle ∨ s.phase = .decode → step s = .next { s with events := es })

/-- R127: any response the outstanding request does not expect ends the command with `TRANSPORT_FAULT` in that step; no
request is issued, and `SP`, `RXCNT`, `CRC` and all else stay. -/
def Obligations.TransportFailureEndsTheCommand : Prop :=
  ∀ (s : State) (q : Request) (r : Response) (es : List Event),
    s.request = some q → s.events = .answer r :: es → expects q r = false →
    step s = .next { s with events := es, phase := .idle, done := true, result := .transportFault }

/-- R128: a command whose responses are the expected ones issues exactly its row of requests; one that fails at request
`k + 1` issues exactly the first `k + 1` and ends with `TRANSPORT_FAULT`; NONE and reserved issue none. -/
def Obligations.CommandRequestSequences : Prop :=
  ∀ (s : State) (o : Op) (v : Byte) (rest : List HostOp) (rs : List Response) (es : List Event),
    s.phase = .idle → s.host = .wr 0x00 v :: rest → s.events = .host :: (rs.map .answer ++ es) →
    (o = .start ∧ decodeCtrl v = .start ∨ o = .read ∧ decodeCtrl v = .read →
      (rs.length = (commandRequests s.cfg o).length →
        (∀ p ∈ (commandRequests s.cfg o).zip rs, expects p.1 p.2 = true) →
        ∃ t, run (rs.length + 1) s = .next t ∧ t.busTrace = s.busTrace ++ commandRequests s.cfg o ∧
          (o = .start → t.phase = .idle ∧ t.result = .ok) ∧ (o = .read → t.phase = .decode)) ∧
      (∀ k (hk : k < (commandRequests s.cfg o).length) (hl : rs.length = k + 1),
        (∀ p ∈ ((commandRequests s.cfg o).zip rs).take k, expects p.1 p.2 = true) →
        expects (commandRequests s.cfg o)[k] rs[k] = false →
        ∃ t, run (rs.length + 1) s = .next t ∧ t.busTrace = s.busTrace ++ (commandRequests s.cfg o).take (k + 1) ∧
          t.phase = .idle ∧ t.result = .transportFault)) ∧
    (decodeCtrl v = .cmdNone ∨ decodeCtrl v = .illegal →
      ∃ t, run 1 s = .next t ∧ t.busTrace = s.busTrace)

/-- R104, READ written as one function, over the whole transaction: for any nine bytes, the twelve expected responses
and the engine's step leave the bytes and their CRC, and the temperature and its text if and only if the CRC is 0x00. -/
def Obligations.ReadAsOneFunction : Prop :=
  ∀ (s : State) (v : Byte) (rest : List HostOp) (bs : Vector Byte 9) (es : List Event),
    s.phase = .idle → s.host = .wr 0x00 v :: rest → decodeCtrl v = .read →
    s.events = .host :: ((readScript bs.toList).map .answer ++ .engine :: es) →
    ∃ t, run 14 s = .next t ∧
      t.phase = .idle ∧ t.op = .read ∧ t.done = true ∧ t.sp = bs ∧ t.rxcnt = 9 ∧ t.crc = crc8 bs.toList ∧
      t.busTrace = s.busTrace ++ commandRequests s.cfg .read ∧
      t.cfg = s.cfg ∧ t.host = rest ∧ t.events = es ∧ t.hostLog = s.hostLog ++ [.wr 0x00 v] ∧
      (crc8 bs.toList = 0x00 →
        t.result = .ok ∧ t.tvalid = true ∧ t.traw = bs[1] ++ bs[0] ∧
        t.dlen.toNat = (text s.cfg.tieMode (s16 t.traw)).length ∧
        ∀ j (h : j < 16), t.disp[j] = (text s.cfg.tieMode (s16 t.traw)).getD j 0x00) ∧
      (crc8 bs.toList ≠ 0x00 →
        t.result = .checksumMismatch ∧ t.tvalid = false ∧ t.traw = 0x0000 ∧ t.dlen = 0 ∧
        t.disp = Vector.replicate 16 0x00)

/-! ### The scratchpad and the CRC-8 (spec/42_scratchpad_crc.md) -/

/-- R146: the engine's step checks `CRC` and decodes or finishes with `CHECKSUM_MISMATCH`; with another `STATE` it
changes nothing. -/
def Obligations.CheckStep : Prop :=
  ∀ (s : State) (es : List Event), s.events = .engine :: es →
    (s.phase = .decode → s.crc = 0x00 → step s = .next (State.decodeAndFormat dispCap { s with events := es })) ∧
    (s.phase = .decode → s.crc ≠ 0x00 →
      step s = .next { s with events := es, phase := .idle, done := true, result := .checksumMismatch }) ∧
    (s.phase ≠ .decode → step s = .next { s with events := es })

/-- R145, R147, R148: after nine bytes `CRC` equals `crc8(SP[0..8])` and decides whether the scratchpad is valid; after
`CHECKSUM_MISMATCH` there is no temperature, `SP` holds the nine bytes and `CRC` their nonzero residue. -/
def Obligations.ResidueDecidesValidity : Prop :=
  ∀ s : State, s.Inv → s.ScratchInv →
    (s.phase = .decode → s.rxcnt = 9) ∧
    (s.rxcnt = 9 → s.crc = crc8 s.sp.toList ∧ (validScratchpad s.sp = true ↔ s.crc = 0x00)) ∧
    (s.result = .checksumMismatch →
      s.tvalid = false ∧ s.traw = 0x0000 ∧ s.dlen = 0 ∧ s.disp = Vector.replicate 16 0x00 ∧
      s.rxcnt = 9 ∧ s.crc = crc8 s.sp.toList ∧ s.crc ≠ 0x00 ∧ validScratchpad s.sp = false)

/-- R150: the CRC corner cases; nine 0x00 bytes are valid and read as 0.0. -/
def Obligations.CrcCornerCases : Prop :=
  crc8 (List.replicate 9 0x00) = 0x00 ∧ validScratchpad (Vector.replicate 9 0x00) = true ∧
  rawWord (Vector.replicate 9 0x00) = 0x0000 ∧
  (∀ mode, numberText mode (s16 0x0000) = [0x30, 0x2E, 0x30]) ∧
  crc8 (List.replicate 9 0xFF) = 0x63 ∧ crc8 [0x01] = 0x5E ∧ crc8 [0x80] = 0x8C ∧ crc8 [0xFF] = 0x35

/-- R149(a): the bit step, read with its bits reversed, is division by x^8 + x^5 + x^4 + 1 (0x31 in normal form). -/
def Obligations.BitStepIsTheReflectedPolynomial : Prop :=
  ∀ c d : Byte,
    (crc8Bit (c, d)).1.reverse =
      (c.reverse <<< 1) ^^^ (if c.getLsbD 0 = d.getLsbD 0 then 0x00 else 0x31) ∧
    (crc8Bit (c, d)).2 = d >>> 1

/-- R149(b): `crc8` is linear over XOR for sequences of equal length. -/
def Obligations.CrcIsLinear : Prop :=
  ∀ a b : List Byte, a.length = b.length → crc8 (List.zipWith (· ^^^ ·) a b) = crc8 a ^^^ crc8 b

/-- R149(c), the append property: a last byte makes the residue 0x00 exactly when it is the CRC of those before it. -/
def Obligations.AppendedChecksumGivesZero : Prop :=
  ∀ (m : List Byte) (c : Byte), crc8 (m ++ [c]) = 0x00 ↔ c = crc8 m

/-- R149(d): every single-bit flip of a valid scratchpad is detected. -/
def Obligations.SingleBitFlipsAreDetected : Prop :=
  ∀ (sp : Vector Byte 9) (i : Fin 9) (j : Fin 8),
    validScratchpad sp = true → validScratchpad (flipBit sp i j) = false

/-- R149(e): every flip of two different bits of a valid scratchpad is detected. -/
def Obligations.DoubleBitFlipsAreDetected : Prop :=
  ∀ (sp : Vector Byte 9) (i k : Fin 9) (j l : Fin 8), (i, j) ≠ (k, l) →
    validScratchpad sp = true → validScratchpad (flipBit (flipBit sp i j) k l) = false

/-! ### The temperature decoder (spec/43_temperature_decode.md) -/

/-- R160, R161, R162: the raw word is `SP[1] * 256 + SP[0]`, its signed value is its two's complement over all 16 bits, and the
temperature is that value over 16, from -2048 to 2047.9375. -/
def Obligations.RawWordAndSignedValue : Prop :=
  (∀ sp : Vector Byte 9, (rawWord sp).toNat = sp[1].toNat * 256 + sp[0].toNat) ∧
  ∀ w : RawWord, s16 w = w.toInt ∧ -32768 ≤ s16 w ∧ s16 w ≤ 32767 ∧
    16 * temperature w = s16 w ∧ -2048 ≤ temperature w ∧ temperature w ≤ 2047 + 15 / 16

/-- R164: `tenths(s)` is a nearest whole number of tenths of |s|/16; the ties are at |s| mod 8 = 4, where HALF_AWAY goes up
and HALF_EVEN goes to the even one. So what is shown is within 0.05 degrees of the temperature's magnitude. -/
def Obligations.TenthsIsTheNearest : Prop :=
  (∀ (mode : TieMode) (w : RawWord), abs ((tenths mode (s16 w) : Rat) / 10 - abs (temperature w)) ≤ 1 / 20) ∧
  ∀ (mode : TieMode) (s : Int),
    8 * tenths mode s ≤ 5 * s.natAbs + 4 ∧ 5 * s.natAbs ≤ 8 * tenths mode s + 4 ∧
    (5 * s.natAbs % 8 = 4 ↔ s.natAbs % 8 = 4) ∧
    (s.natAbs % 8 = 4 → 8 * tenths .halfAway s = 5 * s.natAbs + 4 ∧ tenths .halfEven s % 2 = 0)

/-- R165: `decimal(n)` is the shortest base-10 ASCII form of `n`. -/
def Obligations.DecimalIsTheShortestForm : Prop :=
  ∀ n : Nat,
    (∀ b ∈ decimal n, 0x30 ≤ b.toNat ∧ b.toNat ≤ 0x39) ∧ decimalValue (decimal n) = n ∧
    decimal n ≠ [] ∧ (n ≠ 0 → (decimal n).head? ≠ some 0x30) ∧ decimal 0 = [0x30]

/-- R169: the decode step. A text that fits is written with `TRAW`, `DLEN` and `TVALID`, and the command finishes with `OK`; one
that does not finishes with `FORMAT_OVERFLOW` and writes no output. -/
def Obligations.DecodeAndFormatStep : Prop :=
  ∀ (cap : Nat) (s : State) (x : List Byte), cap ≤ 16 → x = text s.cfg.tieMode (s16 (rawWord s.sp)) →
    (cap < x.length →
      s.decodeAndFormat cap = { s with phase := .idle, done := true, result := .formatOverflow }) ∧
    (x.length ≤ cap → ∃ disp : Vector Byte 16,
      s.decodeAndFormat cap =
        { s with
          phase := .idle, done := true, result := .ok, traw := rawWord s.sp, tvalid := true
          dlen := BitVec.ofNat 5 x.length, disp := disp } ∧
      (BitVec.ofNat 5 x.length).toNat = x.length ∧
      (∀ j (h : j < x.length) (hj : j < 16), disp[j] = x[j]) ∧
      (∀ j (hj : j < 16), x.length ≤ j → disp[j] = s.disp[j]))

/-- R171: the length of the text by range of `s`, the same for both tie modes, and the texts at the ends of the ranges
are those the table shows. -/
def Obligations.TextLengthByRange : Prop :=
  ∀ mode : TieMode,
    (∀ w : RawWord, (text mode (s16 w)).length =
      if s16 w ≤ -16000 then 13 else if s16 w ≤ -1600 then 12 else if s16 w ≤ -160 then 11
      else if s16 w ≤ -1 then 10 else if s16 w ≤ 159 then 9 else if s16 w ≤ 1599 then 10
      else if s16 w ≤ 15999 then 11 else 12) ∧
    numberText mode 0 = [0x30, 0x2E, 0x30] ∧
    numberText mode 159 = [0x39, 0x2E, 0x39] ∧
    numberText mode 160 = [0x31, 0x30, 0x2E, 0x30] ∧
    numberText mode 1599 = [0x39, 0x39, 0x2E, 0x39] ∧
    numberText mode 1600 = [0x31, 0x30, 0x30, 0x2E, 0x30] ∧
    numberText mode 15999 = [0x39, 0x39, 0x39, 0x2E, 0x39] ∧
    numberText mode 16000 = [0x31, 0x30, 0x30, 0x30, 0x2E, 0x30] ∧
    numberText mode 32767 = [0x32, 0x30, 0x34, 0x37, 0x2E, 0x39] ∧
    numberText mode (-1) = [0x2D, 0x30, 0x2E, 0x31] ∧
    numberText mode (-159) = [0x2D, 0x39, 0x2E, 0x39] ∧
    numberText mode (-160) = [0x2D, 0x31, 0x30, 0x2E, 0x30] ∧
    numberText mode (-1599) = [0x2D, 0x39, 0x39, 0x2E, 0x39] ∧
    numberText mode (-1600) = [0x2D, 0x31, 0x30, 0x30, 0x2E, 0x30] ∧
    numberText mode (-15999) = [0x2D, 0x39, 0x39, 0x39, 0x2E, 0x39] ∧
    numberText mode (-16000) = [0x2D, 0x31, 0x30, 0x30, 0x30, 0x2E, 0x30] ∧
    numberText mode (-32768) = [0x2D, 0x32, 0x30, 0x34, 0x38, 0x2E, 0x30]

/-- R167: for every raw word the text fits the 16 bytes, between 9 and 13 of them, the longest at -32768; so the check step never
ends with `FORMAT_OVERFLOW`. Under any capacity too small for the text, the decode finishes with it and writes no text. -/
def Obligations.TextAlwaysFits : Prop :=
  (∀ (mode : TieMode) (w : RawWord), 9 ≤ (text mode (s16 w)).length ∧ (text mode (s16 w)).length ≤ 13) ∧
  (∀ mode : TieMode, text mode (-32768) =
    [0x54, 0x65, 0x6D, 0x70, 0x3A, 0x20, 0x2D, 0x32, 0x30, 0x34, 0x38, 0x2E, 0x30]) ∧
  (∀ s : State, s.phase = .decode → s.checkStep.result ≠ .formatOverflow) ∧
  ∀ (cap : Nat) (s : State), cap < (text s.cfg.tieMode (s16 (rawWord s.sp))).length →
    s.decodeAndFormat cap = { s with phase := .idle, done := true, result := .formatOverflow }

/-- R170: the number text is never "-0.0", and a negative value shows at least one tenth. -/
def Obligations.NeverMinusZero : Prop :=
  ∀ (mode : TieMode) (s : Int),
    (s < 0 → 1 ≤ tenths mode s) ∧ numberText mode s ≠ [0x2D, 0x30, 0x2E, 0x30]

/-! ### Reset (spec/70_reset_and_hazards.md) -/

/-- R37: the reset values; no request is outstanding and `BUSY` reads 0. -/
def Obligations.ResetValues : Prop :=
  State.reset.phase = .idle ∧ State.reset.op = .none ∧ State.reset.busy = false ∧ State.reset.done = false ∧
  State.reset.result = .none ∧ State.reset.tvalid = false ∧ State.reset.sp = Vector.replicate 9 0x00 ∧
  State.reset.rxcnt = 0 ∧ State.reset.crc = 0x00 ∧ State.reset.traw = 0x0000 ∧
  State.reset.disp = Vector.replicate 16 0x00 ∧ State.reset.dlen = 0 ∧
  State.reset.memRead 0x30 = 0xDF ∧ State.reset.memRead 0x31 = 0x43 ∧ State.reset.request = none

/-- R240, R241: a reset step may be taken in any state and sets every register to its reset value; the request is withdrawn,
a late response to it is dropped, and no result is reported. -/
def Obligations.ResetStepFromAnyState : Prop :=
  ∀ (s : State) (es : List Event), s.events = .reset :: es →
    ∃ t, step s = .next t ∧
      t = { s with
            phase := .idle, op := .none, done := false, result := .none, tvalid := false,
            sp := Vector.replicate 9 0x00, rxcnt := 0, crc := 0x00, traw := 0x0000,
            disp := Vector.replicate 16 0x00, dlen := 0, events := es } ∧
      t.request = none ∧ t.busy = false ∧ t.statusWord = 0x00 ∧
      ∀ r es', es = .answer r :: es' → run 2 s = .next { t with events := es' }

/-! ### Invariants -/

/-- The three invariants hold at reset. -/
def Obligations.InvariantsHoldAtReset : Prop :=
  State.reset.Inv ∧ State.reset.ScratchInv ∧ State.reset.DisplayInv

/-- Every step keeps the control invariant. -/
def Obligations.StepKeepsControlInvariant : Prop :=
  ∀ s t : State, s.Inv → step s = .next t → t.Inv

/-- Every step keeps the receive buffer's invariant: at most nine bytes, `CRC` the CRC-8 of those received, zeros behind. -/
def Obligations.StepKeepsScratchInvariant : Prop :=
  ∀ s t : State, s.Inv → s.ScratchInv → step s = .next t → t.ScratchInv

/-- Every step keeps the display invariant: with `TVALID`, the buffer is the text of `TRAW` and then zeros. -/
def Obligations.StepKeepsDisplayInvariant : Prop :=
  ∀ s t : State, s.Inv → s.DisplayInv → step s = .next t → t.DisplayInv

/-- R38: its list holds in every reachable state, whatever the parameters, the host's program, the transport's answers and the
schedule. -/
def Obligations.ReachableStatesMeetTheList : Prop :=
  ∀ (c : Config) (host : List HostOp) (es : List Event) (n : Nat) (t : State),
    run n { State.reset with cfg := c, host := host, events := es } = .next t →
    (t.tvalid = true →
      t.phase = .idle ∧ t.done = true ∧ t.result = .ok ∧ t.op = .read ∧ t.rxcnt = 9 ∧ t.crc = 0x00 ∧
      t.traw = t.sp[1] ++ t.sp[0] ∧ 0 < t.dlen.toNat) ∧
    (t.tvalid = false → t.traw = 0x0000 ∧ t.dlen = 0 ∧ ∀ j (h : j < 16), t.disp[j] = 0x00) ∧
    (t.done = false → t.result = .none) ∧ (t.phase = .decode → t.rxcnt = 9) ∧
    (t.phase = .rx → t.rxcnt.toNat ≤ 8) ∧
    (t.phase = .rst ∨ t.phase = .txSkip ∨ t.phase = .txFunc → t.rxcnt = 0 ∧ t.crc = 0x00) ∧
    (t.busy = true → t.done = false)

/-- Which results a command can end with (R201, R202, R204, R252), in a state that meets the invariant. -/
def Obligations.ResultsOfEachCommand : Prop :=
  ∀ s : State, s.Inv → s.done = true →
    s.phase = .idle ∧
    (s.op = .start → s.result = .ok ∨ s.result = .transportFault) ∧
    (s.op = .read → s.result = .ok ∨ s.result = .checksumMismatch ∨ s.result = .transportFault) ∧
    (s.op = .none → s.result = .illegalCommand) ∧
    (s.tvalid = true ↔ s.op = .read ∧ s.result = .ok)

/-! ### Whole-machine rules -/

/-- R246: the end of a command is exactly STATUS[1:0] = 0b10; while it runs the outputs are cleared. -/
def Obligations.EndOfCommandIsSeenInStatus : Prop :=
  ∀ s : State, s.Inv →
    (s.ended ↔ (s.memRead 0x01).extractLsb' 0 2 = 0b10) ∧
    (s.phase ≠ .idle → s.result = .none ∧ s.tvalid = false ∧ s.traw = 0x0000 ∧ s.dlen = 0 ∧
      s.disp = Vector.replicate 16 0x00)

/-- R66, R242: no step changes the parameters. -/
def Obligations.ParametersNeverChange : Prop :=
  ∀ s t : State, step s = .next t → t.cfg = s.cfg

/-- R64, R130: a step issues at most one request, which is then the outstanding one; it issues one only by accepting a command
in `IDLE` or by consuming the response to the current one; in `IDLE` and `DECODE` none is outstanding. -/
def Obligations.OneRequestAtATime : Prop :=
  ∀ s t : State, step s = .next t →
    (t.busTrace = s.busTrace ∨
      ∃ q, t.busTrace = s.busTrace ++ [q] ∧ t.request = some q ∧
        ((s.phase = .idle ∧ ∃ es, s.events = .host :: es) ∨
          (s.request.isSome ∧ ∃ r es, s.events = .answer r :: es))) ∧
    (t.phase = .idle ∨ t.phase = .decode → t.request = none)

/-- R60: only an accept, a decode step or reset writes `TRAW`. -/
def Obligations.WritersOfTraw : Prop :=
  ∀ s t : State, step s = .next t → t.traw ≠ s.traw →
    (s.phase = .idle ∧ ∃ es v rest, s.events = .host :: es ∧ s.host = .wr 0x00 v :: rest ∧ decodeCtrl v ≠ .cmdNone) ∨
    (s.phase = .decode ∧ ∃ es, s.events = .engine :: es) ∨ ∃ es, s.events = .reset :: es

/-- R250: while a request is outstanding and the transport does not answer, only reset ends the wait: the block stays in
its state, `BUSY` stays 1, and a held CTRL write waits. -/
def Obligations.NoAnswerNoProgress : Prop :=
  ∀ s t : State, s.request.isSome → step s = .next t → (∀ r es, s.events ≠ .answer r :: es) →
    (∀ es, s.events ≠ .reset :: es) →
    t.phase = s.phase ∧ t.request = s.request ∧ t.busy = true ∧
    ∀ v rest, s.host = .wr 0x00 v :: rest → t.host = s.host

/-- R200: no error stops the block. Every instruction answers a next state in every state; where the row's request is not outstanding,
or the block is busy, that is the model's choice (notes/assumptions/5.md). In a state that meets the invariant a step is refused
only for a host address outside the space or for another driver of the transport. -/
def Obligations.NoErrorStopsTheBlock : Prop :=
  (∀ (i : Instr) (s : State), ∃ t, exec i s = .next t) ∧
  (∀ (s : State) (r : Fault), step s ≠ .fault r) ∧
  ∀ (s : State) (r : Refusal), s.Inv → step s = .refused r →
    (∃ a, r = .hostAddress a ∧ 0x40 ≤ a) ∨ (r = .secondDriver ∧ ∃ es, s.events = .secondDriver :: es)

/-- Every command ends, if the transport answers (R253, 92_eei_decisions.md D14): whatever twelve answers it gives, they
and one engine step bring a busy block to the end of the command. An engine step after an end that came early changes nothing,
which is the model's reading (notes/assumptions/4.md). -/
def Obligations.EveryAnsweredCommandEnds : Prop :=
  ∀ (s : State) (rs : List Response) (es : List Event),
    s.Inv → s.phase ≠ .idle → rs.length = 12 → s.events = rs.map .answer ++ .engine :: es →
    ∃ t, run 13 s = .next t ∧ t.ended ∧ t.op = s.op ∧ t.events = es

/-- The bus command bytes decide the bus trace and nothing else (92_eei_decisions.md D12). -/
def Obligations.ResultsDoNotDependOnBusCodes : Prop :=
  ∀ (s t : State) (c : Config), c.tieMode = s.cfg.tieMode → step s = .next t →
    ∃ trace, step { s with cfg := c } = .next { t with cfg := c, busTrace := trace } ∧
      (t.busTrace = s.busTrace → trace = s.busTrace)

/-- The frame of the four bus steps without data, for every response and in every state: every address but STATUS
and FSM reads as before, and `OP`, the parameters and the outside agents' data but the bus trace stay. Where the row's request is
not outstanding, that it answers at all is the model's choice (notes/assumptions/5.md). -/
def Obligations.BusStepsFrame : Prop :=
  ∀ (s : State) (r : Response),
    ∀ i ∈ [Instr.tReset r, Instr.skipRom r, Instr.convertT r, Instr.readScratchpad r],
      ∃ t, exec i s = .next t ∧ (∀ a, a ≠ 0x01 → a ≠ 0x07 → t.memRead a = s.memRead a) ∧
        t.op = s.op ∧ t.tvalid = s.tvalid ∧ t.cfg = s.cfg ∧ t.host = s.host ∧ t.hostLog = s.hostLog ∧
        t.events = s.events

/-- The frame of the receive step: besides STATUS, CRC, RXCNT and FSM, only the address of `SP[RXCNT]` may read otherwise, and
that one reads the byte received. Outside `RX`, that it answers at all is the model's choice (notes/assumptions/5.md). -/
def Obligations.ReceiveStepFrame : Prop :=
  ∀ (s : State) (r : Response), s.rxcnt.toNat < 9 →
    ∃ t, exec (.tRead r) s = .next t ∧
      (∀ a, a ∉ [0x01, 0x04, 0x05, 0x07, 0x08 + s.rxcnt.toNat] → t.memRead a = s.memRead a) ∧
      (∀ b, r = .data b → s.phase = .rx → t.memRead (0x08 + s.rxcnt.toNat) = b) ∧
      t.op = s.op ∧ t.tvalid = s.tvalid ∧ t.cfg = s.cfg ∧ t.host = s.host ∧ t.hostLog = s.hostLog ∧
      t.events = s.events

/-- The premise of R245: it holds of a host's record only if a START was written, its end then seen in STATUS as 0x12, and waits
of at least 1000 ms recorded after that, with no START and no READ written in between. -/
def Obligations.ConversionPremiseNeedsTheWait : Prop :=
  ∀ log : List HostRec, ConversionPremise log →
    ∃ (before during after : List HostRec) (v : Byte),
      log = before ++ [.wr 0x00 v] ++ during ++ [.rd 0x01 0x12] ++ after ∧ decodeCtrl v = .start ∧
      (∀ w, .wr 0x00 w ∈ during ++ after → decodeCtrl w ≠ .start ∧ decodeCtrl w ≠ .read) ∧
      convWaitMs ≤ (after.map fun r => match r with
        | .waited ms => ms
        | .rd _ _ => 0
        | .wr _ _ => 0).sum

/-- `GET_TEMP` (R84) on a valid temperature reads `TRAW`, `DLEN` and then exactly the bytes of the text (R168, R252). R84 gives 3 +
`DLEN` reads; the one turn more, in which the text reads are expanded, is the model's choice (notes/assumptions/12.md). -/
def Obligations.GetTempReadsTheText : Prop :=
  ∀ (s : State) (rest : List HostOp) (es : List Event),
    s.Inv → s.DisplayInv → s.tvalid = true → s.host = HostOp.getTemp ++ rest →
    s.events = List.replicate (4 + s.dlen.toNat) .host ++ es →
    ∃ t, run (4 + s.dlen.toNat) s = .next t ∧ t.host = rest ∧ t.events = es ∧
      t.hostLog = s.hostLog ++
        [.rd 0x02 (s.traw.extractLsb' 0 8), .rd 0x03 (s.traw.extractLsb' 8 8), .rd 0x06 (s.dlen.zeroExtend 8)] ++
        (List.range s.dlen.toNat).map
          (fun j => .rd (0x20 + j) ((text s.cfg.tieMode (s16 s.traw)).getD j 0x00))
end

