-- ==== Sys2Proof/Laws/Crc.lean ====
section
/-! SUPPORT. The CRC-8 over a list grown at its end, and the equations of the bit loop. -/

namespace Sys2Proof.Machine

@[simp] theorem crc8_nil : crc8 [] = 0x00 := rfl

/-- One more byte is one more byte step (the per-byte update of R141). -/
theorem crc8_concat (bs : List Byte) (b : Byte) : crc8 (bs ++ [b]) = crc8Byte (crc8 bs) b := by
  simp [crc8]

@[simp] theorem crc8Bits_zero (p : Byte × Byte) : crc8Bits 0 p = p := rfl
theorem crc8Bits_succ (n : Nat) (p : Byte × Byte) : crc8Bits (n + 1) p = crc8Bits n (crc8Bit p) := rfl

end Sys2Proof.Machine
end

