-- ==== Sys2Proof/Laws/Decode.lean ====
section
/-! SUPPORT. The decoder's parts on what the encoder writes. -/

namespace Sys2Proof

/-- A response record is two bytes, and they decode to the response. -/
theorem decodeResponse_encodeResponse (r : Response) :
    ∃ k v, encodeResponse r = [k, v] ∧ decodeResponse k v = .ok r := by
  cases r with
  | presence p => cases p <;> exact ⟨_, _, rfl, rfl⟩
  | ack => exact ⟨_, _, rfl, rfl⟩
  | data b => exact ⟨_, _, rfl, rfl⟩
  | fault => exact ⟨_, _, rfl, rfl⟩

/-- What `Config.wellFormed` says. -/
theorem Config.wellFormed_iff (c : Config) :
    c.wellFormed = true ↔
      c.cmdSkipRom ≠ c.cmdConvertT ∧ c.cmdSkipRom ≠ c.cmdReadScratchpad ∧
        c.cmdConvertT ≠ c.cmdReadScratchpad := by
  simp [Config.wellFormed, and_assoc]

end Sys2Proof
end

