-- ==== Sys2Proof/Laws/State.lean ====
section
/-! SUPPORT. One lemma per field per state update, true by unfolding once, so that no later proof unfolds a record update. -/

namespace Sys2Proof.Machine

/-! ### `clearOutputs` -/

@[simp] theorem State.clearOutputs_phase (s : State) : (s.clearOutputs).phase = s.phase := rfl
@[simp] theorem State.clearOutputs_op (s : State) : (s.clearOutputs).op = s.op := rfl
@[simp] theorem State.clearOutputs_done (s : State) : (s.clearOutputs).done = false := rfl
@[simp] theorem State.clearOutputs_result (s : State) : (s.clearOutputs).result = .none := rfl
@[simp] theorem State.clearOutputs_tvalid (s : State) : (s.clearOutputs).tvalid = false := rfl
@[simp] theorem State.clearOutputs_sp (s : State) : (s.clearOutputs).sp = Vector.replicate 9 0x00 := rfl
@[simp] theorem State.clearOutputs_rxcnt (s : State) : (s.clearOutputs).rxcnt = 0 := rfl
@[simp] theorem State.clearOutputs_crc (s : State) : (s.clearOutputs).crc = 0x00 := rfl
@[simp] theorem State.clearOutputs_traw (s : State) : (s.clearOutputs).traw = 0x0000 := rfl
@[simp] theorem State.clearOutputs_disp (s : State) : (s.clearOutputs).disp = Vector.replicate 16 0x00 := rfl
@[simp] theorem State.clearOutputs_dlen (s : State) : (s.clearOutputs).dlen = 0 := rfl
@[simp] theorem State.clearOutputs_cfg (s : State) : (s.clearOutputs).cfg = s.cfg := rfl
@[simp] theorem State.clearOutputs_host (s : State) : (s.clearOutputs).host = s.host := rfl
@[simp] theorem State.clearOutputs_hostLog (s : State) : (s.clearOutputs).hostLog = s.hostLog := rfl
@[simp] theorem State.clearOutputs_busTrace (s : State) : (s.clearOutputs).busTrace = s.busTrace := rfl
@[simp] theorem State.clearOutputs_events (s : State) : (s.clearOutputs).events = s.events := rfl

/-! ### `finish` -/

@[simp] theorem State.finish_phase (c : Result) (s : State) : (s.finish c).phase = .idle := rfl
@[simp] theorem State.finish_op (c : Result) (s : State) : (s.finish c).op = s.op := rfl
@[simp] theorem State.finish_done (c : Result) (s : State) : (s.finish c).done = true := rfl
@[simp] theorem State.finish_result (c : Result) (s : State) : (s.finish c).result = c := rfl
@[simp] theorem State.finish_tvalid (c : Result) (s : State) : (s.finish c).tvalid = s.tvalid := rfl
@[simp] theorem State.finish_sp (c : Result) (s : State) : (s.finish c).sp = s.sp := rfl
@[simp] theorem State.finish_rxcnt (c : Result) (s : State) : (s.finish c).rxcnt = s.rxcnt := rfl
@[simp] theorem State.finish_crc (c : Result) (s : State) : (s.finish c).crc = s.crc := rfl
@[simp] theorem State.finish_traw (c : Result) (s : State) : (s.finish c).traw = s.traw := rfl
@[simp] theorem State.finish_disp (c : Result) (s : State) : (s.finish c).disp = s.disp := rfl
@[simp] theorem State.finish_dlen (c : Result) (s : State) : (s.finish c).dlen = s.dlen := rfl
@[simp] theorem State.finish_cfg (c : Result) (s : State) : (s.finish c).cfg = s.cfg := rfl
@[simp] theorem State.finish_host (c : Result) (s : State) : (s.finish c).host = s.host := rfl
@[simp] theorem State.finish_hostLog (c : Result) (s : State) : (s.finish c).hostLog = s.hostLog := rfl
@[simp] theorem State.finish_busTrace (c : Result) (s : State) : (s.finish c).busTrace = s.busTrace := rfl
@[simp] theorem State.finish_events (c : Result) (s : State) : (s.finish c).events = s.events := rfl

/-! ### `enter` -/

@[simp] theorem State.enter_phase (p : Phase) (s : State) : (s.enter p).phase = p := rfl
@[simp] theorem State.enter_op (p : Phase) (s : State) : (s.enter p).op = s.op := rfl
@[simp] theorem State.enter_done (p : Phase) (s : State) : (s.enter p).done = s.done := rfl
@[simp] theorem State.enter_result (p : Phase) (s : State) : (s.enter p).result = s.result := rfl
@[simp] theorem State.enter_tvalid (p : Phase) (s : State) : (s.enter p).tvalid = s.tvalid := rfl
@[simp] theorem State.enter_sp (p : Phase) (s : State) : (s.enter p).sp = s.sp := rfl
@[simp] theorem State.enter_rxcnt (p : Phase) (s : State) : (s.enter p).rxcnt = s.rxcnt := rfl
@[simp] theorem State.enter_crc (p : Phase) (s : State) : (s.enter p).crc = s.crc := rfl
@[simp] theorem State.enter_traw (p : Phase) (s : State) : (s.enter p).traw = s.traw := rfl
@[simp] theorem State.enter_disp (p : Phase) (s : State) : (s.enter p).disp = s.disp := rfl
@[simp] theorem State.enter_dlen (p : Phase) (s : State) : (s.enter p).dlen = s.dlen := rfl
@[simp] theorem State.enter_cfg (p : Phase) (s : State) : (s.enter p).cfg = s.cfg := rfl
@[simp] theorem State.enter_host (p : Phase) (s : State) : (s.enter p).host = s.host := rfl
@[simp] theorem State.enter_hostLog (p : Phase) (s : State) : (s.enter p).hostLog = s.hostLog := rfl
@[simp] theorem State.enter_events (p : Phase) (s : State) : (s.enter p).events = s.events := rfl

@[simp] theorem State.enter_busTrace (p : Phase) (s : State) :
    (s.enter p).busTrace = s.busTrace ++ (State.request { s with phase := p }).toList := rfl

/-! ### `takeReset` -/

@[simp] theorem State.takeReset_phase (s : State) : (s.takeReset).phase = .idle := rfl
@[simp] theorem State.takeReset_op (s : State) : (s.takeReset).op = .none := rfl
@[simp] theorem State.takeReset_done (s : State) : (s.takeReset).done = false := rfl
@[simp] theorem State.takeReset_result (s : State) : (s.takeReset).result = .none := rfl
@[simp] theorem State.takeReset_tvalid (s : State) : (s.takeReset).tvalid = false := rfl
@[simp] theorem State.takeReset_sp (s : State) : (s.takeReset).sp = Vector.replicate 9 0x00 := rfl
@[simp] theorem State.takeReset_rxcnt (s : State) : (s.takeReset).rxcnt = 0 := rfl
@[simp] theorem State.takeReset_crc (s : State) : (s.takeReset).crc = 0x00 := rfl
@[simp] theorem State.takeReset_traw (s : State) : (s.takeReset).traw = 0x0000 := rfl
@[simp] theorem State.takeReset_disp (s : State) : (s.takeReset).disp = Vector.replicate 16 0x00 := rfl
@[simp] theorem State.takeReset_dlen (s : State) : (s.takeReset).dlen = 0 := rfl
@[simp] theorem State.takeReset_cfg (s : State) : (s.takeReset).cfg = s.cfg := rfl
@[simp] theorem State.takeReset_host (s : State) : (s.takeReset).host = s.host := rfl
@[simp] theorem State.takeReset_hostLog (s : State) : (s.takeReset).hostLog = s.hostLog := rfl
@[simp] theorem State.takeReset_busTrace (s : State) : (s.takeReset).busTrace = s.busTrace := rfl
@[simp] theorem State.takeReset_events (s : State) : (s.takeReset).events = s.events := rfl

/-! ### `record` -/

@[simp] theorem State.record_phase (r : HostRec) (s : State) : (s.record r).phase = s.phase := rfl
@[simp] theorem State.record_op (r : HostRec) (s : State) : (s.record r).op = s.op := rfl
@[simp] theorem State.record_done (r : HostRec) (s : State) : (s.record r).done = s.done := rfl
@[simp] theorem State.record_result (r : HostRec) (s : State) : (s.record r).result = s.result := rfl
@[simp] theorem State.record_tvalid (r : HostRec) (s : State) : (s.record r).tvalid = s.tvalid := rfl
@[simp] theorem State.record_sp (r : HostRec) (s : State) : (s.record r).sp = s.sp := rfl
@[simp] theorem State.record_rxcnt (r : HostRec) (s : State) : (s.record r).rxcnt = s.rxcnt := rfl
@[simp] theorem State.record_crc (r : HostRec) (s : State) : (s.record r).crc = s.crc := rfl
@[simp] theorem State.record_traw (r : HostRec) (s : State) : (s.record r).traw = s.traw := rfl
@[simp] theorem State.record_disp (r : HostRec) (s : State) : (s.record r).disp = s.disp := rfl
@[simp] theorem State.record_dlen (r : HostRec) (s : State) : (s.record r).dlen = s.dlen := rfl
@[simp] theorem State.record_cfg (r : HostRec) (s : State) : (s.record r).cfg = s.cfg := rfl
@[simp] theorem State.record_host (r : HostRec) (s : State) : (s.record r).host = s.host := rfl
@[simp] theorem State.record_hostLog (r : HostRec) (s : State) : (s.record r).hostLog = s.hostLog ++ [r] := rfl
@[simp] theorem State.record_busTrace (r : HostRec) (s : State) : (s.record r).busTrace = s.busTrace := rfl
@[simp] theorem State.record_events (r : HostRec) (s : State) : (s.record r).events = s.events := rfl

/-! ### `accept` -/

@[simp] theorem State.accept_phase (o : Op) (s : State) : (s.accept o).phase = .rst := rfl
@[simp] theorem State.accept_op (o : Op) (s : State) : (s.accept o).op = o := rfl
@[simp] theorem State.accept_done (o : Op) (s : State) : (s.accept o).done = false := rfl
@[simp] theorem State.accept_result (o : Op) (s : State) : (s.accept o).result = .none := rfl
@[simp] theorem State.accept_tvalid (o : Op) (s : State) : (s.accept o).tvalid = false := rfl
@[simp] theorem State.accept_sp (o : Op) (s : State) : (s.accept o).sp = Vector.replicate 9 0x00 := rfl
@[simp] theorem State.accept_rxcnt (o : Op) (s : State) : (s.accept o).rxcnt = 0 := rfl
@[simp] theorem State.accept_crc (o : Op) (s : State) : (s.accept o).crc = 0x00 := rfl
@[simp] theorem State.accept_traw (o : Op) (s : State) : (s.accept o).traw = 0x0000 := rfl
@[simp] theorem State.accept_disp (o : Op) (s : State) : (s.accept o).disp = Vector.replicate 16 0x00 := rfl
@[simp] theorem State.accept_dlen (o : Op) (s : State) : (s.accept o).dlen = 0 := rfl
@[simp] theorem State.accept_cfg (o : Op) (s : State) : (s.accept o).cfg = s.cfg := rfl
@[simp] theorem State.accept_host (o : Op) (s : State) : (s.accept o).host = s.host := rfl
@[simp] theorem State.accept_hostLog (o : Op) (s : State) : (s.accept o).hostLog = s.hostLog := rfl
@[simp] theorem State.accept_busTrace (o : Op) (s : State) : (s.accept o).busTrace = s.busTrace ++ [.tReset] := rfl
@[simp] theorem State.accept_events (o : Op) (s : State) : (s.accept o).events = s.events := rfl

/-! ### `receive` -/

@[simp] theorem State.receive_op (b : Byte) (s : State) : (s.receive b).op = s.op := rfl
@[simp] theorem State.receive_done (b : Byte) (s : State) : (s.receive b).done = s.done := rfl
@[simp] theorem State.receive_result (b : Byte) (s : State) : (s.receive b).result = s.result := rfl
@[simp] theorem State.receive_tvalid (b : Byte) (s : State) : (s.receive b).tvalid = s.tvalid := rfl
@[simp] theorem State.receive_sp (b : Byte) (s : State) : (s.receive b).sp = s.sp.setIfInBounds s.rxcnt.toNat b := rfl
@[simp] theorem State.receive_rxcnt (b : Byte) (s : State) : (s.receive b).rxcnt = s.rxcnt + 1 := rfl
@[simp] theorem State.receive_crc (b : Byte) (s : State) : (s.receive b).crc = crc8Byte s.crc b := rfl
@[simp] theorem State.receive_traw (b : Byte) (s : State) : (s.receive b).traw = s.traw := rfl
@[simp] theorem State.receive_disp (b : Byte) (s : State) : (s.receive b).disp = s.disp := rfl
@[simp] theorem State.receive_dlen (b : Byte) (s : State) : (s.receive b).dlen = s.dlen := rfl
@[simp] theorem State.receive_cfg (b : Byte) (s : State) : (s.receive b).cfg = s.cfg := rfl
@[simp] theorem State.receive_host (b : Byte) (s : State) : (s.receive b).host = s.host := rfl
@[simp] theorem State.receive_hostLog (b : Byte) (s : State) : (s.receive b).hostLog = s.hostLog := rfl
@[simp] theorem State.receive_events (b : Byte) (s : State) : (s.receive b).events = s.events := rfl
@[simp] theorem State.receive_phase (b : Byte) (s : State) :
    (s.receive b).phase = if s.rxcnt + 1 = 9 then .decode else .rx := rfl
@[simp] theorem State.receive_busTrace (b : Byte) (s : State) :
    (s.receive b).busTrace = if s.rxcnt + 1 = 9 then s.busTrace else s.busTrace ++ [.tRead] := by
  unfold State.receive
  by_cases h : s.rxcnt + 1 = 9
  · simp only [if_pos h]; exact List.append_nil _
  · simp only [if_neg h]; rfl

/-! ### the outstanding request -/

@[simp] theorem State.request_idle (s : State) : State.request { s with phase := .idle } = none := rfl
@[simp] theorem State.request_rst (s : State) : State.request { s with phase := .rst } = some .tReset := rfl
@[simp] theorem State.request_txSkip (s : State) :
    State.request { s with phase := .txSkip } = some (.tWrite s.cfg.cmdSkipRom) := rfl
@[simp] theorem State.request_txFunc (s : State) :
    State.request { s with phase := .txFunc } = (func s.cfg s.op).map .tWrite := rfl
@[simp] theorem State.request_rx (s : State) : State.request { s with phase := .rx } = some .tRead := rfl
@[simp] theorem State.request_decode (s : State) : State.request { s with phase := .decode } = none := rfl

end Sys2Proof.Machine
end

