-- ==== Sys2Proof/Laws/Ops.lean ====
section
/-! SUPPORT. What each shared operation can do, said once. -/

namespace Sys2Proof.Machine

/-- A response either is not for this state (nothing changes), or is the expected one, or ends the command. -/
theorem State.respond_cases (o e : Bool) (k : State → State) (s : State) :
    (o = false ∧ s.respond o e k = s) ∨ (o = true ∧ e = true ∧ s.respond o e k = k s) ∨
      (o = true ∧ e = false ∧ s.respond o e k = s.finish .transportFault) := by
  cases o <;> cases e <;> simp [State.respond]

@[simp] theorem State.respond_off (e : Bool) (k : State → State) (s : State) : s.respond false e k = s := rfl
@[simp] theorem State.respond_expected (k : State → State) (s : State) : s.respond true true k = k s := rfl
@[simp] theorem State.respond_unexpected (k : State → State) (s : State) :
    s.respond true false k = s.finish .transportFault := rfl

/-- The check step: not enabled, a mismatch, or a decode. -/
theorem State.checkStep_cases (s : State) :
    (s.phase ≠ .decode ∧ s.checkStep = s) ∨
    (s.phase = .decode ∧ s.crc ≠ 0x00 ∧ s.checkStep = s.finish .checksumMismatch) ∨
    (s.phase = .decode ∧ s.crc = 0x00 ∧ s.checkStep = s.decodeAndFormat dispCap) := by
  unfold State.checkStep
  by_cases h : s.phase = .decode
  · by_cases hc : s.crc = 0x00
    · exact .inr (.inr ⟨h, hc, by rw [if_pos h, if_pos hc]⟩)
    · exact .inr (.inl ⟨h, hc, by rw [if_pos h, if_neg hc]⟩)
  · exact .inl ⟨h, by rw [if_neg h]⟩

/-- The decode: the text does not fit and nothing but the result is written, or it fits and is written. -/
theorem State.decodeAndFormat_cases (cap : Nat) (s : State) :
    (cap < (text s.cfg.tieMode (s16 (rawWord s.sp))).length ∧
      s.decodeAndFormat cap = s.finish .formatOverflow) ∨
    ((text s.cfg.tieMode (s16 (rawWord s.sp))).length ≤ cap ∧
      s.decodeAndFormat cap =
        ({ s with
          traw := rawWord s.sp
          disp := writeDisp s.disp 0 (text s.cfg.tieMode (s16 (rawWord s.sp)))
          dlen := BitVec.ofNat 5 (text s.cfg.tieMode (s16 (rawWord s.sp))).length
          tvalid := true }).finish .ok) := by
  unfold State.decodeAndFormat
  by_cases h : cap < (text s.cfg.tieMode (s16 (rawWord s.sp))).length
  · exact .inl ⟨h, by simp [h]⟩
  · exact .inr ⟨by omega, by simp [h]⟩

/-- The instruction a response is, in each state with an outstanding request. -/
theorem State.awaiting_some {r : Response} {s : State} {i : Instr} (h : s.awaiting r = some i) :
    (s.phase = .rst ∧ i = .tReset r) ∨ (s.phase = .txSkip ∧ i = .skipRom r) ∨
    (s.phase = .txFunc ∧ s.op = .start ∧ i = .convertT r) ∨
    (s.phase = .txFunc ∧ s.op = .read ∧ i = .readScratchpad r) ∨ (s.phase = .rx ∧ i = .tRead r) := by
  unfold State.awaiting at h
  cases hp : s.phase <;> cases ho : s.op <;> simp_all

end Sys2Proof.Machine
end

