-- ==== Sys2Proof/Laws/Exec.lean ====
section
/-! SUPPORT. What an instruction can do, said once for all nine: each invariant is then a case analysis over this lemma. -/

namespace Sys2Proof.Machine

/-- Nothing (not enabled, or NONE); in `IDLE`, an accept or the reserved command; with a request outstanding, a transport
failure or the move of that state. -/
theorem exec_cases {i : Instr} {s t : State} (h : exec i s = .next t) :
    t = s ∨
    (s.phase = .idle ∧ i = .start ∧ t = s.accept .start) ∨
    (s.phase = .idle ∧ i = .read ∧ t = s.accept .read) ∨
    (s.phase = .idle ∧ i = .illegal ∧
      t = State.finish .illegalCommand { s.clearOutputs with op := .none }) ∨
    ((s.phase = .rst ∨ s.phase = .txSkip ∨ s.phase = .txFunc ∧ s.op ≠ .none ∨ s.phase = .rx) ∧
      t = s.finish .transportFault) ∨
    (s.phase = .rst ∧ i = .tReset (.presence true) ∧ t = s.enter .txSkip) ∨
    (s.phase = .txSkip ∧ i = .skipRom .ack ∧ t = s.enter .txFunc) ∨
    (s.phase = .txFunc ∧ s.op = .start ∧ i = .convertT .ack ∧ t = s.finish .ok) ∨
    (s.phase = .txFunc ∧ s.op = .read ∧ i = .readScratchpad .ack ∧ t = s.enter .rx) ∨
    (s.phase = .rx ∧ ∃ b, i = .tRead (.data b) ∧ t = s.receive b) := by
  cases i with
  | cmdNone => exact .inl (Host.Outcome.next.inj h).symm
  | start =>
    have h := (Host.Outcome.next.inj h).symm
    by_cases hp : s.phase = .idle
    · rw [if_pos hp] at h; exact .inr (.inl ⟨hp, rfl, h⟩)
    · rw [if_neg hp] at h; exact .inl h
  | read =>
    have h := (Host.Outcome.next.inj h).symm
    by_cases hp : s.phase = .idle
    · rw [if_pos hp] at h; exact .inr (.inr (.inl ⟨hp, rfl, h⟩))
    · rw [if_neg hp] at h; exact .inl h
  | illegal =>
    have h := (Host.Outcome.next.inj h).symm
    by_cases hp : s.phase = .idle
    · rw [if_pos hp] at h; exact .inr (.inr (.inr (.inl ⟨hp, rfl, h⟩)))
    · rw [if_neg hp] at h; exact .inl h
  | tReset r =>
    have ht := (Host.Outcome.next.inj h).symm
    rcases s.respond_cases (s.phase = .rst) (r = .presence true) (State.enter .txSkip) with
      ⟨_, e⟩ | ⟨ho, he, e⟩ | ⟨ho, _, e⟩ <;> rw [e] at ht
    · exact .inl ht
    · simp only [decide_eq_true_eq] at ho he; subst he; simp [ht, ho]
    · simp only [decide_eq_true_eq] at ho; simp [ht, ho]
  | skipRom r =>
    have ht := (Host.Outcome.next.inj h).symm
    rcases s.respond_cases (s.phase = .txSkip) (r = .ack) (State.enter .txFunc) with
      ⟨_, e⟩ | ⟨ho, he, e⟩ | ⟨ho, _, e⟩ <;> rw [e] at ht
    · exact .inl ht
    · simp only [decide_eq_true_eq] at ho he; subst he; simp [ht, ho]
    · simp only [decide_eq_true_eq] at ho; simp [ht, ho]
  | convertT r =>
    have ht := (Host.Outcome.next.inj h).symm
    rcases s.respond_cases (s.phase = .txFunc ∧ s.op = .start) (r = .ack) (State.finish .ok) with
      ⟨_, e⟩ | ⟨ho, he, e⟩ | ⟨ho, _, e⟩ <;> rw [e] at ht
    · exact .inl ht
    · simp only [decide_eq_true_eq] at ho he; subst he; simp [ht, ho]
    · simp only [decide_eq_true_eq] at ho; simp [ht, ho]
  | readScratchpad r =>
    have ht := (Host.Outcome.next.inj h).symm
    rcases s.respond_cases (s.phase = .txFunc ∧ s.op = .read) (r = .ack) (State.enter .rx) with
      ⟨_, e⟩ | ⟨ho, he, e⟩ | ⟨ho, _, e⟩ <;> rw [e] at ht
    · exact .inl ht
    · simp only [decide_eq_true_eq] at ho he; subst he; simp [ht, ho]
    · simp only [decide_eq_true_eq] at ho; simp [ht, ho]
  | tRead r =>
    by_cases hp : s.phase = .rx
    · cases r <;> simp [exec, execTRead, hp] at h <;> subst h <;> simp [hp]
    · exact .inl (by cases r <;> simp [exec, execTRead, hp] at h <;> exact h.symm)

end Sys2Proof.Machine
end

