-- ==== Sys2Proof/Laws/Memory.lean ====
section
/-! SUPPORT. The host register space: a read depends on the block's registers only; and writing one byte of the
scratchpad. -/

namespace Sys2Proof.Machine

@[simp] theorem hostSpace_eq : hostSpace = 64 := rfl

/-- A read does not see the parameters or the outside agents' data. -/
theorem memRead_outside (s : State) (c : Config) (h : List HostOp) (l : List HostRec) (b : List Request) (e : List Event)
    (a : Nat) :
    State.memRead { s with cfg := c, host := h, hostLog := l, busTrace := b, events := e } a = s.memRead a := rfl

@[simp] theorem memRead_record (s : State) (r : HostRec) (a : Nat) : (s.record r).memRead a = s.memRead a := rfl

@[simp] theorem memRead_status (s : State) : s.memRead 0x01 = s.statusWord := rfl

/-- Writing `SP[i]` inside the buffer. -/
theorem sp_write (sp : Vector Byte 9) (i : Nat) (h : i < 9) (b : Byte) : sp.setIfInBounds i b = sp.set i b :=
  Vector.ext fun j hj => by simp [Vector.getElem_setIfInBounds, Vector.getElem_set]

end Sys2Proof.Machine
end

