-- ==== Sys2Proof/Laws/PerInstr.lean ====
section
/-! SUPPORT. Facts made per instruction: the shape of an encoding (spec/30_encoding.md R81). A host word is one byte and a
transport word is two records of two bytes. -/

/-- The encoding of an instruction has the fixed form of the port it stands at (R81). -/
def Sys2Proof.Laws.EncodeShape.Statement (i : Sys2Proof.Instr) : Prop :=
  ∀ c : Sys2Proof.Config,
    (Sys2Proof.encode c i).2.length =
      match (Sys2Proof.encode c i).1 with
      | .host => 1
      | .transport => 4

namespace Sys2Proof.Laws

theorem encodeResponse_length (r : Response) : (encodeResponse r).length = 2 := by cases r <;> rfl

theorem EncodeShape.cmdNone : EncodeShape.Statement .cmdNone := fun _ => rfl
theorem EncodeShape.start : EncodeShape.Statement .start := fun _ => rfl
theorem EncodeShape.read : EncodeShape.Statement .read := fun _ => rfl
theorem EncodeShape.illegal : EncodeShape.Statement .illegal := fun _ => rfl
theorem EncodeShape.skipRom (r : Response) : EncodeShape.Statement (.skipRom r) := fun c => by
  simp [encode, encodeRequest, encodeResponse_length]
theorem EncodeShape.convertT (r : Response) : EncodeShape.Statement (.convertT r) := fun c => by
  simp [encode, encodeRequest, encodeResponse_length]
theorem EncodeShape.readScratchpad (r : Response) : EncodeShape.Statement (.readScratchpad r) := fun c => by
  simp [encode, encodeRequest, encodeResponse_length]
theorem EncodeShape.tReset (r : Response) : EncodeShape.Statement (.tReset r) := fun c => by
  simp [encode, encodeRequest, encodeResponse_length]
theorem EncodeShape.tRead (r : Response) : EncodeShape.Statement (.tRead r) := fun c => by
  simp [encode, encodeRequest, encodeResponse_length]

end Sys2Proof.Laws
end

