-- ==== Sys2Proof/Laws/Step.lean ====
section
/-! SUPPORT. What one step can do, by the choice the schedule makes. -/

namespace Sys2Proof.Machine

theorem step_nil {s : State} (h : s.events = []) : step s = .next s := by
  simp [step, h]

theorem step_cons {s : State} {e : Event} {es : List Event} (h : s.events = e :: es) :
    step s = turn e { s with events := es } := by
  simp [step, h]

theorem core_step (s : State) : Sys2Proof.core.step s = step s := rfl

/-- What the host's turn does when it answers a next state: nothing to do; a read; a held CTRL write; a CTRL
write that runs its command; a dropped write; a wait; a poll; the reads of the text. -/
theorem hostTurn_cases {s t : State} (h : hostTurn s = .next t) :
    (s.host = [] ∧ t = s) ∨
    (∃ a rest, s.host = .rd a :: rest ∧ a < hostSpace ∧
      t = ({ s with host := rest }).record (.rd a (s.memRead a))) ∨
    (∃ v rest, s.host = .wr 0x00 v :: rest ∧ s.phase ≠ .idle ∧ t = s) ∨
    (∃ v rest, s.host = .wr 0x00 v :: rest ∧ s.phase = .idle ∧
      exec (decodeCtrl v) (({ s with host := rest }).record (.wr 0x00 v)) = .next t) ∨
    (∃ a v rest, s.host = .wr a v :: rest ∧ a ≠ 0x00 ∧ a < hostSpace ∧
      t = ({ s with host := rest }).record (.wr a v)) ∨
    (∃ n rest, s.host = .waitMs n :: rest ∧ t = ({ s with host := rest }).record (.waited n)) ∨
    (∃ rest, s.host = .poll :: rest ∧ t = pollStatus rest s) ∨
    (∃ rest, s.host = .rdText :: rest ∧ t = { s with host := textReads s.lastRead.toNat ++ rest }) := by
  unfold hostTurn at h
  split at h
  · next hh => exact .inl ⟨hh, (Host.Outcome.next.inj h).symm⟩
  · next a rest hh =>
    unfold hostRead at h
    split at h
    · next ha => exact .inr (.inl ⟨a, rest, hh, ha, (Host.Outcome.next.inj h).symm⟩)
    · cases h
  · next a v rest hh =>
    unfold hostWrite at h
    split at h
    · next ha =>
      split at h
      · next h0 =>
        subst h0
        split at h
        · next hp => exact .inr (.inr (.inr (.inl ⟨v, rest, hh, hp, h⟩)))
        · next hp => exact .inr (.inr (.inl ⟨v, rest, hh, hp, (Host.Outcome.next.inj h).symm⟩))
      · next h0 => exact .inr (.inr (.inr (.inr (.inl ⟨a, v, rest, hh, h0, ha, (Host.Outcome.next.inj h).symm⟩))))
    · cases h
  · next n rest hh => exact .inr (.inr (.inr (.inr (.inr (.inl ⟨n, rest, hh, (Host.Outcome.next.inj h).symm⟩)))))
  · next rest hh => exact .inr (.inr (.inr (.inr (.inr (.inr (.inl ⟨rest, hh, (Host.Outcome.next.inj h).symm⟩))))))
  · next rest hh => exact .inr (.inr (.inr (.inr (.inr (.inr (.inr ⟨rest, hh, (Host.Outcome.next.inj h).symm⟩))))))

/-- What the transport's turn does when it answers a next state: the response is dropped, or it is the
instruction the state awaits. -/
theorem answerTurn_cases {r : Response} {s t : State} (h : answerTurn r s = .next t) :
    ((s.phase = .idle ∨ s.phase = .decode) ∧ t = s) ∨
    (∃ i, s.awaiting r = some i ∧ exec i s = .next t) := by
  unfold answerTurn at h
  split at h
  · next i hi => exact .inr ⟨i, hi, h⟩
  · next hn =>
    split at h
    · cases h
    · next hp =>
      refine .inl ⟨?_, (Host.Outcome.next.inj h).symm⟩
      unfold State.awaiting at hn
      cases hq : s.phase <;> simp_all

/-- What a step that answers a next state does: nothing scheduled, or the turn of the agent the schedule names. -/
theorem step_cases {s t : State} (h : step s = .next t) :
    (s.events = [] ∧ t = s) ∨
    (∃ es, s.events = .host :: es ∧ hostTurn { s with events := es } = .next t) ∨
    (∃ es, s.events = .engine :: es ∧ t = State.checkStep { s with events := es }) ∨
    (∃ r es, s.events = .answer r :: es ∧ answerTurn r { s with events := es } = .next t) ∨
    (∃ es, s.events = .reset :: es ∧ t = State.takeReset { s with events := es }) := by
  unfold step at h
  split at h
  · next he => exact .inl ⟨he, (Host.Outcome.next.inj h).symm⟩
  · next e es he =>
    cases e with
    | host => exact .inr (.inl ⟨es, he, h⟩)
    | engine => exact .inr (.inr (.inl ⟨es, he, (Host.Outcome.next.inj h).symm⟩))
    | answer r => exact .inr (.inr (.inr (.inl ⟨r, es, he, h⟩)))
    | reset => exact .inr (.inr (.inr (.inr ⟨es, he, (Host.Outcome.next.inj h).symm⟩)))
    | secondDriver => cases h

end Sys2Proof.Machine
end

