-- ==== Sys2Proof/Laws/Run.lean ====
section
/-! SUPPORT. Running several steps. -/

namespace Sys2Proof.Machine

@[simp] theorem run_zero (s : State) : run 0 s = .next s := rfl

theorem run_succ_of_next {n : Nat} {s t : State} (h : step s = .next t) : run (n + 1) s = run n t := by
  simp [run, h]

/-- `m + n` steps are `n` steps from where `m` steps led. -/
theorem run_add_of_next {m n : Nat} {s t : State} (h : run m s = .next t) : run (m + n) s = run n t := by
  induction m generalizing s with
  | zero => cases h; simp
  | succ m ih =>
    rw [Nat.add_right_comm]
    simp only [run] at h ⊢
    split at h
    · next u hu => exact ih h
    · cases h
    · cases h

/-- One step of the host's own way of running a machine. -/
theorem core_run_succ (M : Host.Core) (n : Nat) (s : M.State) :
    M.run (n + 1) s =
      match M.step s with
      | .next t => M.run n t
      | .fault r => .fault r
      | .refused r => .refused r := rfl

/-- `run` is the host's own way of running the machine. -/
theorem run_eq_core_run (n : Nat) (s : State) : run n s = Host.Core.run Sys2Proof.core n s := by
  induction n generalizing s with
  | zero => rfl
  | succ n ih =>
    rw [core_run_succ Sys2Proof.core n s, core_step, run]
    cases step s with
    | next t => exact ih t
    | fault r => rfl
    | refused r => rfl

/-- An invariant that every step keeps holds after any number of steps. -/
theorem run_keeps {P : State → Prop} (hP : ∀ s t, P s → step s = .next t → P t) {n : Nat} {s t : State}
    (hs : P s) (h : run n s = .next t) : P t := by
  induction n generalizing s with
  | zero => cases h; exact hs
  | succ n ih =>
    simp only [run] at h
    split at h
    · next u hu => exact ih (hP s u hs hu) h
    · cases h
    · cases h

end Sys2Proof.Machine
end

