-- ==== Sys2Proof/Laws/Safety.lean ====
section
/-! SUPPORT. The invariants speak of the block only: the outside agents' data may be anything. -/

namespace Sys2Proof.Machine

theorem State.Inv.outside {s : State} (h : s.Inv) (c : Config) (p : List HostOp) (l : List HostRec) (b : List Request)
    (e : List Event) : State.Inv { s with cfg := c, host := p, hostLog := l, busTrace := b, events := e } := by
  obtain ⟨_, _, _, _, _, _, _, _, _, _, _, _, _, _, _, _, _⟩ := h
  constructor <;> assumption

theorem State.ScratchInv.outside {s : State} (h : s.ScratchInv) (c : Config) (p : List HostOp) (l : List HostRec)
    (b : List Request) (e : List Event) :
    State.ScratchInv { s with cfg := c, host := p, hostLog := l, busTrace := b, events := e } :=
  ⟨h.count, h.crc_received, h.rest_zero⟩

/-- While a command runs there is no temperature. -/
theorem State.Inv.busy_tvalid {s : State} (h : s.Inv) (hp : s.phase ≠ .idle) : s.tvalid = false := by
  cases e : s.tvalid with
  | false => rfl
  | true => exact absurd (h.tvalid_end e).1 hp

end Sys2Proof.Machine
end

