-- ==== Sys2Proof/Laws/Temperature.lean ====
section
/-! SUPPORT. Lengths of the texts and what `writeDisp` leaves in each byte. -/

namespace Sys2Proof.Machine

theorem text_length (mode : TieMode) (s : Int) :
    (text mode s).length = 6 + (numberText mode s).length := by
  simp [text, tempLabel]; omega

theorem numberText_length (mode : TieMode) (s : Int) :
    (numberText mode s).length = (if s < 0 then 1 else 0) + (decimal (tenths mode s / 10)).length + 2 := by
  unfold numberText
  by_cases h : s < 0
  · simp [h]; omega
  · simp [h]

/-- `writeDisp` writes byte `start + i` of the buffer with byte `i` of the text, and no other. -/
theorem writeDisp_getElem (disp : Vector Byte 16) (start : Nat) (x : List Byte) (j : Nat) (h : j < 16) :
    (writeDisp disp start x)[j] =
      if start ≤ j ∧ j < start + x.length then x.getD (j - start) 0x00 else disp[j] := by
  induction x generalizing disp start with
  | nil => simp [writeDisp]
  | cons b x ih =>
    rw [writeDisp, ih, Vector.getElem_setIfInBounds h]
    by_cases hs : start = j
    · subst hs; simp
    · by_cases hj : start + 1 ≤ j ∧ j < start + 1 + x.length
      · have e : j - start = (j - (start + 1)) + 1 := by omega
        rw [if_pos hj, if_pos (by simp; omega), e, List.getD_cons_succ]
      · rw [if_neg hj, if_neg hs, if_neg (by simp; omega)]

end Sys2Proof.Machine
end

