-- ==== Sys2Proof/Tests/Slice0.lean ====
section
/-! SUPPORT. The model's own tests. Expected values are those of spec/95_test_vectors.md or written out from the encoding tables of
spec/30_encoding.md. Then, for every statement with hypotheses, a witness that meets them. -/

namespace Sys2Proof.Tests

open Sys2Proof Sys2Proof.Machine

/-- A next state's value under `f`, to test one or two fields of a step. -/
def after {α : Type} (o : Host.Outcome State Fault Refusal) (f : State → α) : Option α :=
  match o with
  | .next t => some (f t)
  | .fault _ => none
  | .refused _ => none

/-- The name a step is refused under. -/
def refusedAs (o : Host.Outcome State Fault Refusal) : Option Refusal :=
  match o with
  | .next _ => none
  | .fault _ => none
  | .refused r => some r

/-- The state after reset with a command in progress. -/
def inPhase (p : Phase) (o : Machine.Op) : State := { State.reset with phase := p, op := o }

/-! ### Well-formedness: each check refuses an ill-formed term -/

theorem test_wf_read_outside_refused : (HostOp.rd 0x40).wellFormed = false := by decide
theorem test_wf_write_outside_refused : (HostOp.wr 0x40 0x01).wellFormed = false := by decide
theorem test_wf_last_address_allowed : (HostOp.rd 0x3F).wellFormed = true := by decide
theorem test_wf_same_skip_and_convert_refused :
    Config.wellFormed { Config.default with cmdConvertT := 0xCC } = false := by decide
theorem test_wf_same_skip_and_read_refused :
    Config.wellFormed { Config.default with cmdReadScratchpad := 0xCC } = false := by decide
theorem test_wf_same_convert_and_read_refused :
    Config.wellFormed { Config.default with cmdReadScratchpad := 0x44 } = false := by decide
theorem test_wf_default_allowed : Config.default.wellFormed = true := by decide

/-! ### Decoding: words written out bit by bit from R70, R71 and R75 to R77, default bus bytes -/

theorem test_decode_none : decode Config.default .host [0b00000000] = .ok .cmdNone := by rfl
theorem test_decode_none_ignored_bits : decode Config.default .host [0b11111100] = .ok .cmdNone := by rfl
theorem test_decode_start : decode Config.default .host [0b00000001] = .ok .start := by rfl
theorem test_decode_start_ignored_bits : decode Config.default .host [0b11111101] = .ok .start := by rfl
theorem test_decode_read : decode Config.default .host [0b00000010] = .ok .read := by rfl
theorem test_decode_read_ignored_bits : decode Config.default .host [0b11111110] = .ok .read := by rfl
theorem test_decode_illegal : decode Config.default .host [0b00000011] = .ok .illegal := by rfl
theorem test_decode_illegal_ignored_bits : decode Config.default .host [0b11111111] = .ok .illegal := by rfl
theorem test_decode_skip_rom :
    decode Config.default .transport [0b00000001, 0b11001100, 0b00000001, 0] = .ok (.skipRom .ack) := by rfl
theorem test_decode_convert_t :
    decode Config.default .transport [0b00000001, 0b01000100, 0b00000011, 0] = .ok (.convertT .fault) := by rfl
theorem test_decode_read_scratchpad :
    decode Config.default .transport [0b00000001, 0b10111110, 0b00000001, 0] = .ok (.readScratchpad .ack) := by rfl
theorem test_decode_t_reset_presence :
    decode Config.default .transport [0b00000000, 0, 0b00000000, 0b00000001] = .ok (.tReset (.presence true)) := by rfl
theorem test_decode_t_reset_no_presence :
    decode Config.default .transport [0b00000000, 0, 0b00000000, 0b00000000] = .ok (.tReset (.presence false)) := by rfl
theorem test_decode_t_read :
    decode Config.default .transport [0b00000010, 0, 0b00000010, 0b01010000] = .ok (.tRead (.data 0x50)) := by rfl
theorem test_decode_kind_3_refused :
    decode Config.default .transport [0b00000011, 0, 0b00000001, 0] = .error .neverIssued := by rfl
theorem test_decode_other_bus_byte_refused :
    decode Config.default .transport [0b00000001, 0x4E, 0b00000001, 0] = .error .unknownBusByte := by rfl
theorem test_decode_response_kind_4_refused :
    decode Config.default .transport [0b00000000, 0, 0b00000100, 0] = .error .unknownResponse := by rfl
theorem test_decode_presence_two_bits_refused :
    decode Config.default .transport [0b00000000, 0, 0b00000000, 0b00000010] = .error .badPresence := by rfl
theorem test_decode_two_ctrl_bytes_refused :
    decode Config.default .host [0x01, 0x02] = .error .wrongLength := by rfl
theorem test_table_word_start : decodeTableWord 8 0x01 = some .start := by decide
theorem test_table_word_skip_rom : decodeTableWord 16 0xCC01 = some (.skipRom (.presence false)) := by decide

/-! ### One step per instruction (spec/95_test_vectors.md L2-A, L2-B) -/

theorem test_a1_none : after (step (State.reset.withFetchWord 8 0x00)) State.statusWord = some 0x00 := by decide
theorem test_a2_start :
    after (step (State.reset.withFetchWord 8 0x01)) (fun t => (t.statusWord, t.fsmWord, t.busTrace)) =
      some (0x01, 0x11, [.tReset]) := by decide
theorem test_a3_read :
    after (step (State.reset.withFetchWord 8 0x02)) (fun t => (t.statusWord, t.fsmWord, t.busTrace)) =
      some (0x01, 0x21, [.tReset]) := by decide
theorem test_a8_illegal :
    after (step (State.reset.withFetchWord 8 0xFF)) (fun t => (t.statusWord, t.fsmWord, t.busTrace)) =
      some (0x42, 0x00, []) := by decide
theorem test_a12_held :
    after (step { inPhase .txSkip .read with host := [.wr 0x00 0x02], events := [.host] })
      (fun t => (t.statusWord, t.fsmWord, t.host)) = some (0x01, 0x22, [.wr 0x00 0x02]) := by decide
theorem test_t_reset_presence :
    after (exec (.tReset (.presence true)) (inPhase .rst .start)) (fun t => (t.fsmWord, t.busTrace)) =
      some (0x12, [.tWrite 0xCC]) := by decide
theorem test_b2_t_reset_no_presence :
    after (exec (.tReset (.presence false)) (inPhase .rst .start)) (fun t => (t.statusWord, t.fsmWord)) =
      some (0x32, 0x10) := by decide
theorem test_skip_rom_start :
    after (exec (.skipRom .ack) (inPhase .txSkip .start)) (fun t => (t.fsmWord, t.busTrace)) =
      some (0x13, [.tWrite 0x44]) := by decide
theorem test_b6_skip_rom_wrong_kind :
    after (exec (.skipRom (.data 0x00)) (inPhase .txSkip .start)) State.statusWord = some 0x32 := by decide
theorem test_b1_convert_t :
    after (exec (.convertT .ack) (inPhase .txFunc .start)) (fun t => (t.statusWord, t.fsmWord)) =
      some (0x12, 0x10) := by decide
theorem test_b9_convert_t_wrong_kind :
    after (exec (.convertT (.data 0x44)) (inPhase .txFunc .start)) State.statusWord = some 0x32 := by decide
theorem test_read_scratchpad :
    after (exec (.readScratchpad .ack) (inPhase .txFunc .read)) (fun t => (t.fsmWord, t.busTrace)) =
      some (0x24, [.tRead]) := by decide
theorem test_b11_read_scratchpad_fault :
    after (exec (.readScratchpad .fault) (inPhase .txFunc .read)) (fun t => (t.statusWord, t.fsmWord)) =
      some (0x32, 0x20) := by decide
theorem test_t_read_first_byte :
    after (exec (.tRead (.data 0x50)) (inPhase .rx .read))
      (fun t => (t.memRead 0x08, t.memRead 0x04, t.memRead 0x05, t.fsmWord)) =
      some (0x50, 0xDB, 0x01, 0x24) := by decide
theorem test_t_read_ninth_byte :
    after (exec (.tRead (.data 0x1C)) { inPhase .rx .read with rxcnt := 8, crc := 0x1C })
      (fun t => (t.memRead 0x10, t.memRead 0x04, t.memRead 0x05, t.fsmWord)) =
      some (0x1C, 0x00, 0x09, 0x25) := by decide

/-- `DECODE` with the nine bytes of program P1. -/
def decodeP1 : State :=
  { inPhase .decode .read with
    sp := #v[0x50, 0x05, 0x4B, 0x46, 0x7F, 0xFF, 0x0C, 0x10, 0x1C], rxcnt := 9, events := [.engine] }

theorem test_p1_decode :
    after (step decodeP1) (fun t => (t.statusWord, t.fsmWord, t.memRead 0x02, t.memRead 0x03, t.memRead 0x06)) =
      some (0x16, 0x20, 0x50, 0x05, 0x0A) := by decide
theorem test_p1_text :
    after (step decodeP1) (fun t => t.disp.toList) =
      some [0x54, 0x65, 0x6D, 0x70, 0x3A, 0x20, 0x38, 0x35, 0x2E, 0x30, 0, 0, 0, 0, 0, 0] := by decide
theorem test_p2_mismatch :
    after (step { decodeP1 with crc := 0x5E }) (fun t => (t.statusWord, t.traw, t.dlen)) = some (0x22, 0, 0) := by
  decide
theorem test_p6_reset :
    after (step { inPhase .rx .read with rxcnt := 3, crc := 0xE2, events := [.reset] })
      (fun t => (t.statusWord, t.fsmWord, t.crc, t.rxcnt)) = some (0x00, 0x00, 0x00, 0) := by decide
theorem test_second_driver_refused :
    refusedAs (step { State.reset with events := [.secondDriver] }) = some .secondDriver := by decide
theorem test_address_0x40_refused :
    refusedAs (step { State.reset with host := [.rd 0x40], events := [.host] }) = some (.hostAddress 0x40) := by decide

/-! ### CRC-8 (L1-1, L1-2, L2-C) -/

theorem test_crc_bit_4 : crc8Bit (0x00, 0x05) = (0x8C, 0x02) := by decide
theorem test_crc_byte_50 : crc8Byte 0x00 0x50 = 0xDB := by decide
theorem test_crc_p1 : crc8 [0x50, 0x05, 0x4B, 0x46, 0x7F, 0xFF, 0x0C, 0x10] = 0x1C := by decide +kernel
theorem test_crc_p1_corrupted : crc8 [0x50, 0x05, 0x4B, 0x46, 0x7F, 0xFF, 0x0C, 0x10, 0x1D] = 0x5E := by decide +kernel
theorem test_crc_negative : crc8 [0x6F, 0xFE, 0x4B, 0x46, 0x7F, 0xFF, 0x0C, 0x10, 0xE8] = 0x00 := by decide +kernel

/-! ### Temperature (L1-3, L2-D) -/

theorem test_text_minus_25_1 :
    text .halfEven (s16 0xFE6F) = [0x54, 0x65, 0x6D, 0x70, 0x3A, 0x20, 0x2D, 0x32, 0x35, 0x2E, 0x31] := by decide
theorem test_number_minus_7_1 : numberText .halfEven (s16 0xFF8E) = [0x2D, 0x37, 0x2E, 0x31] := by decide
theorem test_number_tie_half_even : numberText .halfEven (s16 0x0004) = [0x30, 0x2E, 0x32] := by decide
theorem test_number_tie_half_away : numberText .halfAway (s16 0x0004) = [0x30, 0x2E, 0x33] := by decide
theorem test_number_tie_0_75 : numberText .halfEven (s16 0x000C) = [0x30, 0x2E, 0x38] := by decide
theorem test_tenths_max : tenths .halfAway (s16 0x7FFF) = 20479 ∧ tenths .halfEven (s16 0x8000) = 20480 := by decide

/-! ### The host register map at the ends of its ranges (R51) -/

theorem test_map_boundaries :
    (decodeP1.memRead 0x08, decodeP1.memRead 0x10, decodeP1.memRead 0x11, decodeP1.memRead 0x1F) =
      (0x50, 0x1C, 0x00, 0x00) ∧
    (State.reset.memRead 0x20, State.reset.memRead 0x2F, State.reset.memRead 0x32, State.reset.memRead 0x3F) =
      (0x00, 0x00, 0x00, 0x00) ∧
    (State.reset.memRead 0x30, State.reset.memRead 0x31) = (0xDF, 0x43) := by decide

/-! ### Witnesses: states that meet the hypotheses of the statements -/

/-- The end of a READ of nine 0x00 bytes, which are valid and read as 0.0 (R150). -/
def validZero : State :=
  { State.reset with
    op := .read, done := true, result := .ok, tvalid := true, rxcnt := 9, dlen := 9
    disp := writeDisp (Vector.replicate 16 0x00) 0 (text .halfEven 0) }

/-- The end of a READ of `1D` in the place of `1C` (program P2). -/
def mismatch : State :=
  { State.reset with
    op := .read, done := true, result := .checksumMismatch, rxcnt := 9, crc := 0x5E
    sp := #v[0x50, 0x05, 0x4B, 0x46, 0x7F, 0xFF, 0x0C, 0x10, 0x1D] }

/-- The end of a reserved command. -/
def illegalEnd : State := { State.reset with done := true, result := .illegalCommand }

/-- The end of a START. -/
def startEnd : State := { State.reset with op := .start, done := true, result := .ok }

/-- The end of a READ that the transport failed. -/
def faultEnd : State := { State.reset with op := .read, done := true, result := .transportFault }

theorem inv_reset : State.reset.Inv := by constructor <;> simp [State.reset]
theorem inv_rst : (inPhase .rst .start).Inv := by constructor <;> simp [inPhase, State.reset]
theorem inv_txSkip : (inPhase .txSkip .read).Inv := by constructor <;> simp [inPhase, State.reset]
theorem inv_txFunc : (inPhase .txFunc .read).Inv := by constructor <;> simp [inPhase, State.reset]
theorem inv_rx : (inPhase .rx .read).Inv := by constructor <;> simp [inPhase, State.reset]
theorem inv_rx_8 : ({ inPhase .rx .read with rxcnt := 8 } : State).Inv := by
  constructor <;> simp [inPhase, State.reset]
theorem inv_decodeP1 : decodeP1.Inv := by constructor <;> simp [decodeP1, inPhase, State.reset]
theorem inv_illegalEnd : illegalEnd.Inv := by constructor <;> simp [illegalEnd, State.reset]
theorem inv_startEnd : startEnd.Inv := by constructor <;> simp [startEnd, State.reset]
theorem inv_faultEnd : faultEnd.Inv := by constructor <;> simp [faultEnd, State.reset]
theorem inv_mismatch : mismatch.Inv := by constructor <;> simp [mismatch, State.reset]
theorem inv_validZero : validZero.Inv := by
  constructor <;> simp [validZero, State.reset]
  decide

theorem scratch_reset : State.reset.ScratchInv := ⟨by decide, by decide, by decide⟩
theorem scratch_rx : (inPhase .rx .read).ScratchInv := ⟨by decide, by decide, by decide⟩
theorem scratch_decodeP1 : decodeP1.ScratchInv := ⟨by decide, by decide +kernel, by decide⟩
theorem scratch_mismatch : mismatch.ScratchInv := ⟨by decide, by decide +kernel, by decide⟩
theorem display_reset : State.reset.DisplayInv := by constructor <;> simp [State.reset]
theorem display_decodeP1 : decodeP1.DisplayInv := by constructor <;> simp [decodeP1, inPhase, State.reset]
theorem display_validZero : validZero.DisplayInv := ⟨fun _ => by decide, fun _ => by decide⟩

/-- A schedule: the host's turn with this operation next. -/
def hostNext (op : HostOp) (s : State) : State := { s with host := [op], events := [.host] }

/-- A schedule: the transport answers. -/
def answered (r : Response) (s : State) : State := { s with events := [.answer r] }

theorem witness_NoneChangesNothing :
    ∃ (v : Byte) (s : State) (rest : List HostOp), v.extractLsb' 0 2 = 0b00 ∧ s.phase ≠ .idle ∧
      s.host = .wr 0x00 v :: rest :=
  ⟨0xFC, hostNext (.wr 0x00 0xFC) (inPhase .rst .start), [], by decide⟩

theorem witness_StartAndReadAreAccepted : State.reset.phase = .idle := by decide

theorem witness_ReservedCommandFinishesIllegal :
    ∃ (v : Byte) (s : State), v.extractLsb' 0 2 = 0b11 ∧ s.phase = .idle := ⟨0xFF, validZero, by decide⟩

theorem witness_AcceptClearsOutputs : validZero.phase = .idle ∧ validZero.tvalid = true := by decide

theorem witness_CtrlWriteIsHeldWhileBusy_held :
    ∃ (v : Byte) (s : State), s.host = [.wr 0x00 v] ∧ s.events = [.host] ∧ s.phase ≠ .idle :=
  ⟨0x02, hostNext (.wr 0x00 0x02) (inPhase .txSkip .read), by decide⟩

theorem witness_CtrlWriteIsHeldWhileBusy_taken :
    ∀ v ∈ [(0xFC : Byte), 0xFD, 0xFE, 0xFF], (hostNext (.wr 0x00 v) State.reset).host = [.wr 0x00 v] ∧
      (hostNext (.wr 0x00 v) State.reset).phase = .idle ∧
      v.extractLsb' 0 2 ∈ [0b00#2, 0b01#2, 0b10#2, 0b11#2] := by decide

theorem witness_CmdSelectsTheCommand :
    (0xFC : Byte).extractLsb' 0 2 = 0b00 ∧ (0xFD : Byte).extractLsb' 0 2 = 0b01 ∧
      (0xFE : Byte).extractLsb' 0 2 = 0b10 ∧ (0xFF : Byte).extractLsb' 0 2 = 0b11 := by decide

theorem witness_DecodeOfEncodeIsTheInstruction :
    Config.default.wellFormed = true ∧ (Instr.tRead (.data 0xFF)).wellFormed = true := by decide

theorem witness_StepRunsTheDecodedInstruction_host :
    (hostNext (.wr 0x00 0xFD) State.reset).fetch = some (.host, [0xFD]) ∧
      decode Config.default .host [0xFD] = .ok .start := ⟨by decide, by rfl⟩

theorem witness_StepRunsTheDecodedInstruction_transport :
    (answered (.data 0x50) (inPhase .rx .read)).fetch = some (.transport, [2, 0, 2, 0x50]) ∧
      decode Config.default .transport [2, 0, 2, 0x50] = .ok (.tRead (.data 0x50)) ∧
      Config.default.wellFormed = true := ⟨by decide, by rfl, by decide⟩

/-- Each situation of the STATUS clauses, in a state that meets the invariant. -/
theorem witness_StatusAndFsmWords :
    ((inPhase .rst .start).Inv ∧ (inPhase .rst .start).phase ≠ .idle) ∧
    (State.reset.Inv ∧ State.reset.phase = .idle ∧ State.reset.done = false) ∧
    (validZero.Inv ∧ validZero.op = .read ∧ validZero.result = .ok) ∧
    (startEnd.Inv ∧ startEnd.op = .start ∧ startEnd.result = .ok) ∧
    (mismatch.Inv ∧ mismatch.result = .checksumMismatch) ∧
    (faultEnd.Inv ∧ faultEnd.result = .transportFault) ∧
    (illegalEnd.Inv ∧ illegalEnd.result = .illegalCommand) :=
  ⟨⟨inv_rst, by decide⟩, ⟨inv_reset, by decide⟩, ⟨inv_validZero, by decide⟩, ⟨inv_startEnd, by decide⟩,
    ⟨inv_mismatch, by decide⟩, ⟨inv_faultEnd, by decide⟩, ⟨inv_illegalEnd, by decide⟩⟩

theorem witness_HostRegisterMap :
    ((0x11 ≤ 0x1F) ∧ (0x32 ≤ 0x3F)) ∧ (0x3F < 64 ∧ 0x3F ≠ 0x30 ∧ 0x3F ≠ 0x31) := by decide

theorem witness_HostAccessSteps :
    ((hostNext (.rd 0x3F) State.reset).events = [.host] ∧ (hostNext (.rd 0x3F) State.reset).host = [.rd 0x3F]) ∧
    ((hostNext (.wr 0x00 0x01) State.reset).host = [.wr 0x00 0x01] ∧
      (hostNext (.wr 0x00 0x01) State.reset).phase = .idle) ∧
    (hostNext (.wr 0x01 0xFF) validZero).host = [.wr 0x01 0xFF] ∧
    (hostNext (.wr 0x3F 0xFF) validZero).host = [.wr 0x3F 0xFF] ∧
    ((hostNext (.rd 0x40) State.reset).host = [.rd 0x40] ∧ (0x40 : Nat) ≤ 0x40) := by decide

theorem witness_HostWaitPollAndTextTurns :
    (hostNext (.waitMs 1000) State.reset).host = [.waitMs 1000] ∧ (hostNext .poll State.reset).host = [.poll] ∧
    (let s := { hostNext .rdText validZero with hostLog := [.rd 0x06 0x09] }
     s.host = [.rdText] ∧ s.events = [.host] ∧ s.hostLog = [] ++ [.rd 0x06 0x09]) := by decide

/-- A state in each row of the request table. -/
theorem witness_OutstandingRequest :
    State.reset.phase = .idle ∧ (inPhase .rst .start).phase = .rst ∧ (inPhase .txSkip .read).phase = .txSkip ∧
    ((inPhase .txFunc .start).phase = .txFunc ∧ (inPhase .txFunc .start).op = .start) ∧
    ((inPhase .txFunc .read).phase = .txFunc ∧ (inPhase .txFunc .read).op = .read) ∧
    (inPhase .rx .read).phase = .rx ∧ decodeP1.phase = .decode := by decide

theorem witness_HandshakeStep :
    (inPhase .rst .start).phase = .rst ∧ Response.presence false ≠ .presence true ∧ (inPhase .rst .start).Inv :=
  ⟨by decide, by decide, inv_rst⟩

theorem witness_SkipRomStep :
    ((inPhase .txSkip .start).phase = .txSkip ∧ (inPhase .txSkip .start).op = .start) ∧
    ((inPhase .txSkip .read).phase = .txSkip ∧ (inPhase .txSkip .read).op = .read) ∧ Response.fault ≠ .ack := by decide

theorem witness_ConvertTStep : (inPhase .txFunc .start).phase = .txFunc ∧ (inPhase .txFunc .start).op = .start := by
  decide

theorem witness_ReadScratchpadStep :
    (inPhase .txFunc .read).phase = .txFunc ∧ (inPhase .txFunc .read).op = .read ∧
      (inPhase .txFunc .read).Inv ∧ Response.fault ≠ .ack := ⟨by decide, by decide, inv_txFunc, by decide⟩

/-- `RXCNT` at 7 and 8, where the clauses of the receive step meet, and a fault. -/
theorem witness_ReceiveStep :
    (let s := { inPhase .rx .read with rxcnt := 7 }
     s.phase = .rx ∧ s.rxcnt.toNat < 8) ∧
    (let s := { inPhase .rx .read with rxcnt := 8 }
     s.phase = .rx ∧ s.rxcnt = 8) ∧
    (∀ b, Response.fault ≠ .data b) ∧ (inPhase .rx .read).ScratchInv :=
  ⟨by decide, by decide, by simp, scratch_rx⟩

theorem witness_ResponseTable :
    ((answered .ack (inPhase .rst .start)).events = [.answer .ack] ∧ (inPhase .rst .start).phase = .rst) ∧
    ((inPhase .txSkip .start).phase = .txSkip ∧ (inPhase .txSkip .start).op = .start) ∧
    ((inPhase .txSkip .read).phase = .txSkip ∧ (inPhase .txSkip .read).op = .read) ∧
    ((inPhase .txFunc .start).phase = .txFunc ∧ (inPhase .txFunc .start).op = .start) ∧
    ((inPhase .txFunc .read).phase = .txFunc ∧ (inPhase .txFunc .read).op = .read) ∧
    (inPhase .rx .read).phase = .rx ∧ State.reset.phase = .idle ∧ decodeP1.phase = .decode := by decide

theorem witness_TransportFailureEndsTheCommand :
    (answered (.data 0x44) (inPhase .txFunc .start)).request = some (.tWrite 0x44) ∧
      (answered (.data 0x44) (inPhase .txFunc .start)).events = [.answer (.data 0x44)] ∧
      expects (.tWrite 0x44) (.data 0x44) = false := by decide

/-- Scripts of a START and of a READ with the expected responses. -/
theorem witness_CommandRequestSequences_good :
    ∀ p ∈ [((0x01 : Byte), Machine.Op.start, ([.presence true, .ack, .ack] : List Response)),
        (0x02, Machine.Op.read, readScript (List.replicate 9 0x00))],
      (let s := { State.reset with host := [.wr 0x00 p.1], events := Event.host :: p.2.2.map Event.answer }
       s.phase = .idle ∧ s.host = [.wr 0x00 p.1] ∧ s.events = .host :: (p.2.2.map .answer ++ [])) ∧
      (p.2.1 = .start ∧ decodeCtrl p.1 = .start ∨ p.2.1 = .read ∧ decodeCtrl p.1 = .read) ∧
      p.2.2.length = (commandRequests Config.default p.2.1).length ∧
      ∀ q ∈ (commandRequests Config.default p.2.1).zip p.2.2, expects q.1 q.2 = true := by decide

/-- Failures at the last request of each command, and the commands that issue nothing. -/
theorem witness_CommandRequestSequences_failing :
    ∀ p ∈ [((0x01 : Byte), Machine.Op.start, ([.presence true, .ack, .fault] : List Response), 2),
        (0x02, Machine.Op.read, readScript (List.replicate 8 0x00) ++ [.ack], 11)],
      p.2.2.1.length = p.2.2.2 + 1 ∧ p.2.2.2 < (commandRequests Config.default p.2.1).length ∧
      (∀ q ∈ ((commandRequests Config.default p.2.1).zip p.2.2.1).take p.2.2.2, expects q.1 q.2 = true) ∧
      (((commandRequests Config.default p.2.1).zip p.2.2.1).map fun q => expects q.1 q.2)[p.2.2.2]? = some false ∧
      decodeCtrl 0x00 = .cmdNone ∧ decodeCtrl 0x03 = .illegal := by decide

theorem witness_ReadAsOneFunction :
    (let bs : Vector Byte 9 := Vector.replicate 9 0x00
     let s := { State.reset with
       host := [.wr 0x00 0x02], events := .host :: ((readScript bs.toList).map Event.answer ++ [Event.engine]) }
     s.phase = .idle ∧ s.host = [.wr 0x00 0x02] ∧ decodeCtrl 0x02 = .read ∧ crc8 bs.toList = 0x00) ∧
    crc8 (Vector.replicate 9 (0xFF : Byte)).toList ≠ 0x00 := by decide +kernel

theorem witness_CheckStep :
    (decodeP1.events = [.engine] ∧ decodeP1.phase = .decode ∧ decodeP1.crc = 0x00) ∧
    (let s := { decodeP1 with crc := 0x5E }
     s.events = [.engine] ∧ s.phase = .decode ∧ s.crc ≠ 0x00) ∧
    (let s := { State.reset with events := [.engine] }
     s.events = [.engine] ∧ s.phase ≠ .decode) := by decide

theorem witness_ResidueDecidesValidity :
    (decodeP1.Inv ∧ decodeP1.ScratchInv ∧ decodeP1.phase = .decode ∧ decodeP1.rxcnt = 9) ∧
      (mismatch.Inv ∧ mismatch.ScratchInv ∧ mismatch.result = .checksumMismatch) :=
  ⟨⟨inv_decodeP1, scratch_decodeP1, by decide⟩, ⟨inv_mismatch, scratch_mismatch, by decide⟩⟩

theorem witness_CrcIsLinear : ([0x50, 0x05] : List Byte).length = ([0xFF, 0x01] : List Byte).length := by decide

theorem witness_SingleBitFlipsAreDetected : validScratchpad decodeP1.sp = true := by decide +kernel

theorem witness_DoubleBitFlipsAreDetected :
    validScratchpad decodeP1.sp = true ∧ ((0 : Fin 9), (0 : Fin 8)) ≠ ((8 : Fin 9), (7 : Fin 8)) := by decide +kernel

theorem witness_TenthsIsTheNearest : (4 : Int).natAbs % 8 = 4 ∧ (-12 : Int).natAbs % 8 = 4 := by decide

theorem witness_DecimalIsTheShortestForm : (2048 : Nat) ≠ 0 := by decide

/-- A capacity one byte short of the text of program P1, and one that just holds it. -/
theorem witness_DecodeAndFormatStep :
    9 < (text decodeP1.cfg.tieMode (s16 (rawWord decodeP1.sp))).length ∧
      (text decodeP1.cfg.tieMode (s16 (rawWord decodeP1.sp))).length ≤ 10 ∧ (10 : Nat) ≤ 16 := by decide

theorem witness_TextAlwaysFits :
    decodeP1.phase = .decode ∧ 9 < (text decodeP1.cfg.tieMode (s16 (rawWord decodeP1.sp))).length := by decide

theorem witness_OnlyTheOutstandingRequestIsAnswered :
    State.reset.phase ≠ .rst ∧ (inPhase .rx .read).phase ≠ .txSkip ∧ (inPhase .txFunc .read).op ≠ .start ∧
      (inPhase .txFunc .start).op ≠ .read ∧ decodeP1.phase ≠ .rx ∧ (inPhase .txSkip .read).phase ≠ .idle := by decide

theorem witness_NeverMinusZero : (-1 : Int) < 0 := by decide

theorem witness_ResetStepFromAnyState :
    (let s := { inPhase .rx .read with events := [.reset, .answer (.data 0x50)] }
     s.events = .reset :: [.answer (.data 0x50)]) := by decide

theorem witness_StepKeepsControlInvariant :
    (answered (.presence true) (inPhase .rst .start)).Inv ∧
      after (step (answered (.presence true) (inPhase .rst .start))) State.phase = some .txSkip :=
  ⟨inv_rst.outside _ _ _ _ _, by decide⟩

theorem witness_StepKeepsScratchInvariant :
    (answered (.data 0x50) (inPhase .rx .read)).Inv ∧ (answered (.data 0x50) (inPhase .rx .read)).ScratchInv ∧
      after (step (answered (.data 0x50) (inPhase .rx .read))) State.crc = some 0xDB :=
  ⟨inv_rx.outside _ _ _ _ _, scratch_rx.outside _ _ _ _ _, by decide⟩

theorem witness_StepKeepsDisplayInvariant :
    decodeP1.Inv ∧ decodeP1.DisplayInv ∧ after (step decodeP1) State.tvalid = some true :=
  ⟨inv_decodeP1, display_decodeP1, by decide⟩

theorem witness_ReachableStatesMeetTheList :
    after (run 1 { State.reset with cfg := Config.default, host := [.wr 0x00 0x02], events := [.host] }) State.phase =
      some .rst := by decide

theorem witness_ResultsOfEachCommand :
    (startEnd.Inv ∧ startEnd.done = true ∧ startEnd.op = .start) ∧
    (mismatch.Inv ∧ mismatch.done = true ∧ mismatch.op = .read) ∧
    (illegalEnd.Inv ∧ illegalEnd.done = true ∧ illegalEnd.op = .none) :=
  ⟨⟨inv_startEnd, by decide⟩, ⟨inv_mismatch, by decide⟩, ⟨inv_illegalEnd, by decide⟩⟩

theorem witness_EndOfCommandIsSeenInStatus :
    validZero.Inv ∧ validZero.ended ∧ (inPhase .txSkip .read).Inv ∧ (inPhase .txSkip .read).phase ≠ .idle :=
  ⟨inv_validZero, ⟨by decide, by decide⟩, inv_txSkip, by decide⟩

theorem witness_ParametersNeverChange :
    after (step { inPhase .rx .read with events := [.reset] }) State.cfg = some Config.default := by decide

theorem witness_OneRequestAtATime :
    after (step (hostNext (.wr 0x00 0x01) State.reset)) State.request = some (some .tReset) ∧
      after (step (answered .ack (inPhase .txSkip .read))) State.request = some (some (.tWrite 0xBE)) ∧
      after (step decodeP1) State.phase = some .idle := by decide

theorem witness_WritersOfTraw :
    after (step decodeP1) (fun t => decide (t.traw ≠ decodeP1.traw)) = some true ∧
    (let s := { decodeP1 with phase := .idle, traw := 0x0550 }
     after (step (hostNext (.wr 0x00 0x03) s)) (fun t => decide (t.traw ≠ s.traw)) = some true) := by decide

theorem witness_NoAnswerNoProgress :
    (let s := hostNext (.wr 0x00 0x01) (inPhase .rx .read)
     s.request.isSome ∧ after (step s) State.phase = some .rx ∧ s.host = [.wr 0x00 0x01] ∧ s.events = [.host]) := by
  decide

theorem witness_NoErrorStopsTheBlock :
    State.reset.Inv ∧ refusedAs (step (hostNext (.rd 0x40) State.reset)) = some (.hostAddress 0x40) ∧
      refusedAs (step { State.reset with events := [.secondDriver] }) = some .secondDriver :=
  ⟨inv_reset, by decide, by decide⟩

theorem witness_EveryAnsweredCommandEnds :
    (let s := { inPhase .rst .start with
       events := (List.replicate 12 Response.fault).map Event.answer ++ Event.engine :: [] }
     s.Inv ∧ s.phase ≠ .idle ∧ (List.replicate 12 Response.fault).length = 12 ∧
       s.events = (List.replicate 12 Response.fault).map .answer ++ .engine :: []) :=
  ⟨inv_rst.outside _ _ _ _ _, by decide, by decide, rfl⟩

theorem witness_ResultsDoNotDependOnBusCodes :
    (let c : Config := { cmdSkipRom := 1, cmdConvertT := 2, cmdReadScratchpad := 3, tieMode := .halfEven }
     c.tieMode = State.reset.cfg.tieMode) ∧
      after (step (answered .ack (inPhase .txSkip .read))) State.phase = some .txFunc := by decide

theorem witness_BusStepsFrame :
    (0x02 : Nat) ≠ 0x01 ∧ (0x02 : Nat) ≠ 0x07 ∧
      after (exec (.skipRom .ack) (inPhase .txSkip .read)) State.phase = some .txFunc := by decide

theorem witness_ReceiveStepFrame :
    (let s := { inPhase .rx .read with rxcnt := 8 }
     s.rxcnt.toNat < 9 ∧ s.phase = .rx ∧ (0x0F : Nat) ∉ [0x01, 0x04, 0x05, 0x07, 0x08 + s.rxcnt.toNat]) := by decide

theorem witness_ConversionPremiseNeedsTheWait :
    ConversionPremise [.wr 0x00 0x01, .rd 0x01 0x01, .rd 0x01 0x12, .waited 400, .waited 600] :=
  ⟨1000, by decide, by decide⟩

theorem witness_GetTempReadsTheText :
    (let s := { validZero with
       host := HostOp.getTemp ++ [], events := List.replicate (4 + validZero.dlen.toNat) Event.host ++ [] }
     s.Inv ∧ s.DisplayInv ∧ s.tvalid = true ∧ s.host = HostOp.getTemp ++ [] ∧
       s.events = List.replicate (4 + s.dlen.toNat) .host ++ []) :=
  ⟨inv_validZero.outside _ _ _ _ _, ⟨display_validZero.length, display_validZero.content⟩, by decide, rfl, rfl⟩

end Sys2Proof.Tests
end

section
/-! PROOFS. The state family (spec/10_state.md): the moves the block can make in one step, and the three invariants along them. -/

namespace Sys2Proof.Machine

/-! ### The moves of the block -/

/-- What one step can do to the block's registers: one constructor per rule that writes them. -/
inductive State.Move (s : State) : State → Prop where
  /-- no register is written (R53, R100, R102, R131) -/
  | stay : State.Move s s
  /-- START or READ is accepted (R103, R104) -/
  | accept (o : Op) (hp : s.phase = .idle) (ho : o ≠ .none) : State.Move s (s.accept o)
  /-- the reserved command (R105) -/
  | illegal (hp : s.phase = .idle) :
      State.Move s (State.finish .illegalCommand { s.clearOutputs with op := .none })
  /-- the outstanding request fails (R127) -/
  | fail (hr : s.request.isSome) : State.Move s (s.finish .transportFault)
  /-- a presence pulse (R122) -/
  | presence (hp : s.phase = .rst) : State.Move s (s.enter .txSkip)
  /-- skip ROM is acknowledged (R123) -/
  | skipAck (hp : s.phase = .txSkip) : State.Move s (s.enter .txFunc)
  /-- convert T is acknowledged (R124) -/
  | convertAck (hp : s.phase = .txFunc) (ho : s.op = .start) : State.Move s (s.finish .ok)
  /-- read scratchpad is acknowledged (R125) -/
  | readAck (hp : s.phase = .txFunc) (ho : s.op = .read) : State.Move s (s.enter .rx)
  /-- a data byte is received (R141) -/
  | receive (b : Byte) (hp : s.phase = .rx) : State.Move s (s.receive b)
  /-- the check finds a residue (R146) -/
  | mismatch (hp : s.phase = .decode) (hc : s.crc ≠ 0x00) : State.Move s (s.finish .checksumMismatch)
  /-- the check finds none, and the temperature is decoded (R146, R169) -/
  | decode (hp : s.phase = .decode) (hc : s.crc = 0x00) : State.Move s (s.decodeAndFormat dispCap)
  /-- the reset step (R240) -/
  | reset : State.Move s s.takeReset

/-- The states that have a request outstanding (R120). -/
theorem State.request_isSome_iff (s : State) :
    s.request.isSome ↔
      s.phase = .rst ∨ s.phase = .txSkip ∨ s.phase = .txFunc ∧ s.op ≠ .none ∨ s.phase = .rx := by
  unfold State.request
  cases s.phase with
  | txFunc => cases s.op <;> simp [func]
  | _ => simp

/-- A block with a request outstanding is busy. -/
theorem State.phase_ne_idle_of_request {s : State} (h : s.request.isSome) : s.phase ≠ .idle := by
  intro hp
  simp [State.request, hp] at h

/-- An instruction is a move. -/
theorem exec_move {i : Instr} {s t : State} (h : exec i s = .next t) : s.Move t := by
  rcases exec_cases h with rfl | ⟨hp, -, rfl⟩ | ⟨hp, -, rfl⟩ | ⟨hp, -, rfl⟩ | ⟨hr, rfl⟩ | ⟨hp, -, rfl⟩ |
    ⟨hp, -, rfl⟩ | ⟨hp, ho, -, rfl⟩ | ⟨hp, ho, -, rfl⟩ | ⟨hp, b, -, rfl⟩
  · exact .stay
  · exact .accept .start hp nofun
  · exact .accept .read hp nofun
  · exact .illegal hp
  · exact .fail (s.request_isSome_iff.mpr hr)
  · exact .presence hp
  · exact .skipAck hp
  · exact .convertAck hp ho
  · exact .readAck hp ho
  · exact .receive b hp

/-- The engine's turn is a move. -/
theorem State.checkStep_move (s : State) : s.Move s.checkStep := by
  rcases s.checkStep_cases with ⟨-, e⟩ | ⟨hp, hc, e⟩ | ⟨hp, hc, e⟩ <;> rw [e]
  · exact .stay
  · exact .mismatch hp hc
  · exact .decode hp hc

/-- The transport's turn is a move. -/
theorem answerTurn_move {r : Response} {s t : State} (h : answerTurn r s = .next t) : s.Move t := by
  rcases answerTurn_cases h with ⟨-, rfl⟩ | ⟨i, -, hx⟩
  · exact .stay
  · exact exec_move hx

/-- The host's turn is a move, after its own program and record have changed. -/
theorem hostTurn_move {s t : State} (h : hostTurn s = .next t) :
    ∃ p l, State.Move { s with host := p, hostLog := l } t := by
  rcases hostTurn_cases h with ⟨-, rfl⟩ | ⟨a, rest, -, -, rfl⟩ | ⟨v, rest, -, -, rfl⟩ | ⟨v, rest, -, -, hx⟩ |
    ⟨a, v, rest, -, -, -, rfl⟩ | ⟨n, rest, -, rfl⟩ | ⟨rest, -, rfl⟩ | ⟨rest, -, rfl⟩
  · exact ⟨_, _, .stay⟩
  · exact ⟨_, _, .stay⟩
  · exact ⟨_, _, .stay⟩
  · exact ⟨_, _, exec_move hx⟩
  all_goals exact ⟨_, _, .stay⟩

/-- Every step is a move, after the outside agents' data have changed. -/
theorem step_move {s t : State} (h : step s = .next t) :
    ∃ p l e, State.Move { s with host := p, hostLog := l, events := e } t := by
  rcases step_cases h with ⟨-, rfl⟩ | ⟨es, -, ht⟩ | ⟨es, -, rfl⟩ | ⟨r, es, -, ht⟩ | ⟨es, -, rfl⟩
  · exact ⟨_, _, _, .stay⟩
  · obtain ⟨p, l, hm⟩ := hostTurn_move ht
    exact ⟨p, l, es, hm⟩
  · exact ⟨_, _, _, State.checkStep_move _⟩
  · exact ⟨_, _, _, answerTurn_move ht⟩
  · exact ⟨_, _, _, .reset⟩

/-! ### The text fits the display -/

/-- A number below `10 ^ (k + 1)` has at most `k + 1` digits. -/
theorem decimalAux_length_le (fuel k n : Nat) (acc : List Byte) (h : n < 10 ^ (k + 1)) :
    (decimalAux fuel n acc).length ≤ k + 1 + acc.length := by
  induction fuel generalizing k n acc with
  | zero => simp [decimalAux]
  | succ fuel ih =>
    unfold decimalAux
    split
    · simp
    · next hn =>
      cases k with
      | zero => omega
      | succ k =>
        have hq : n / 10 < 10 ^ (k + 1) := by rw [Nat.pow_succ] at h; omega
        have hl := ih k (n / 10) (digit (n % 10) :: acc) hq
        simp only [List.length_cons] at hl
        omega

theorem s16_natAbs_le (w : RawWord) : (s16 w).natAbs ≤ 32768 := by
  have := w.isLt
  unfold s16
  split <;> omega

/-- Rounding goes up by at most one tenth. -/
theorem tenths_le (mode : TieMode) (s : Int) : tenths mode s ≤ 5 * s.natAbs / 8 + 1 := by
  cases mode <;> simp only [tenths] <;> split_ifs <;> omega

/-- The text of a raw word takes at most 13 bytes (R167). -/
theorem text_length_le (mode : TieMode) (w : RawWord) : (text mode (s16 w)).length ≤ 13 := by
  have hs := s16_natAbs_le w
  have ht := tenths_le mode (s16 w)
  have hd : (decimal (tenths mode (s16 w) / 10)).length ≤ 4 :=
    decimalAux_length_le _ 3 _ [] (by omega)
  rw [text_length, numberText_length]
  split <;> omega

/-- `DLEN` holds the length of the text of any raw word. -/
theorem dlen_text_toNat (mode : TieMode) (w : RawWord) :
    (BitVec.ofNat 5 (text mode (s16 w)).length).toNat = (text mode (s16 w)).length := by
  have := text_length_le mode w
  rw [BitVec.toNat_ofNat, Nat.mod_eq_of_lt (by omega)]

/-- Over the block's own display the decode always ends with `OK` (R167, R169). -/
theorem State.decodeAndFormat_dispCap (s : State) :
    s.decodeAndFormat dispCap =
      ({ s with
        traw := rawWord s.sp
        disp := writeDisp s.disp 0 (text s.cfg.tieMode (s16 (rawWord s.sp)))
        dlen := BitVec.ofNat 5 (text s.cfg.tieMode (s16 (rawWord s.sp))).length
        tvalid := true }).finish .ok := by
  rcases s.decodeAndFormat_cases dispCap with ⟨hlt, -⟩ | ⟨-, e⟩
  · exact absurd hlt (Nat.not_lt.mpr ((text_length_le _ _).trans (by decide)))
  · exact e

/-! ### The control invariant -/

/-- What holds of the registers while a command runs, whatever its state: a command latched, no result, no temperature. -/
structure State.Running (s : State) : Prop where
  op : s.op ≠ .none
  done : s.done = false
  result : s.result = .none
  tvalid : s.tvalid = false
  no_temperature : s.traw = 0x0000 ∧ s.dlen = 0 ∧ s.disp = Vector.replicate 16 0x00

theorem State.Inv.running {s : State} (h : s.Inv) (hp : s.phase ≠ .idle) : s.Running where
  op := h.busy_op hp
  done := h.busy_done hp
  result := h.done_result.mp (h.busy_done hp)
  tvalid := h.busy_tvalid hp
  no_temperature := h.no_temperature (h.busy_tvalid hp)

theorem State.Running.enter {s : State} (h : s.Running) (p : Phase) : (s.enter p).Running :=
  ⟨h.op, h.done, h.result, h.tvalid, h.no_temperature⟩

theorem State.Running.receive {s : State} (h : s.Running) (b : Byte) : (s.receive b).Running :=
  ⟨h.op, h.done, h.result, h.tvalid, h.no_temperature⟩

theorem State.accept_running {o : Op} (ho : o ≠ .none) (s : State) : (s.accept o).Running :=
  ⟨ho, rfl, rfl, rfl, rfl, rfl, rfl⟩

/-- A running block meets the invariant if the receive registers are what its state asks for. -/
theorem State.Running.inv {s : State} (h : s.Running)
    (hrx : s.phase = .rx → s.op = .read ∧ s.rxcnt.toNat ≤ 8)
    (hdecode : s.phase = .decode → s.op = .read ∧ s.rxcnt = 9)
    (hearly : s.phase = .rst ∨ s.phase = .txSkip ∨ s.phase = .txFunc → s.rxcnt = 0 ∧ s.crc = 0x00) :
    s.Inv := by
  obtain ⟨hop, hdone, hresult, htvalid, hnone⟩ := h
  constructor
  case rx_op => exact fun hp => (hrx hp).1
  case decode_op => exact fun hp => (hdecode hp).1
  case decode_rxcnt => exact fun hp => (hdecode hp).2
  case rx_rxcnt => exact fun hp => (hrx hp).2
  case early => exact hearly
  case no_temperature => exact fun _ => hnone
  all_goals simp [hop, hdone, hresult, htvalid]

/-- The ends of a running command that leave no temperature (R201, R202, R204). -/
theorem State.Running.finish_inv {s : State} (h : s.Running) {code : Result}
    (hc : code = .ok ∧ s.op = .start ∨ code = .transportFault ∨
      code = .checksumMismatch ∧ s.op = .read ∧ s.rxcnt = 9 ∧ s.crc ≠ 0x00) :
    (s.finish code).Inv := by
  obtain ⟨hop, -, -, htvalid, hnone⟩ := h
  rcases hc with ⟨rfl, ho⟩ | rfl | ⟨rfl, ho, hn, hcrc⟩
  · constructor <;> simp [htvalid, hnone, ho]
  · constructor <;> simp [htvalid, hnone, hop]
  · constructor <;> simp [htvalid, hnone, ho, hn, show ¬s.crc = 0#8 from hcrc]

theorem State.accept_inv {o : Op} (ho : o ≠ .none) (s : State) : (s.accept o).Inv :=
  (s.accept_running ho).inv nofun nofun fun _ => ⟨rfl, rfl⟩

theorem State.illegal_inv (s : State) :
    (State.finish .illegalCommand { s.clearOutputs with op := .none }).Inv := by
  constructor <;> simp

theorem State.takeReset_inv (s : State) : s.takeReset.Inv := by
  constructor <;> simp

/-- The receive step counts to nine, and enters `DECODE` at nine. -/
theorem State.Inv.receive {s : State} (h : s.Inv) (b : Byte) (hp : s.phase = .rx) : (s.receive b).Inv := by
  have hrun := (h.running (by simp [hp])).receive b
  have hread := h.rx_op hp
  have hcount := h.rx_rxcnt hp
  by_cases hn : s.rxcnt + 1 = 9
  · have hphase : (s.receive b).phase = .decode := if_pos hn
    exact hrun.inv (by rw [hphase]; nofun) (fun _ => ⟨hread, hn⟩) (by rw [hphase]; nofun)
  · have hphase : (s.receive b).phase = .rx := if_neg hn
    have hnext : (s.receive b).rxcnt.toNat ≤ 8 := by rw [State.receive_rxcnt]; bv_omega
    exact hrun.inv (fun _ => ⟨hread, hnext⟩) (by rw [hphase]; nofun) (by rw [hphase]; nofun)

/-- The decode step ends a READ with the temperature of the bytes received. -/
theorem State.Inv.decode {s : State} (h : s.Inv) (hp : s.phase = .decode) (hc : s.crc = 0x00) :
    (s.decodeAndFormat dispCap).Inv := by
  have hlen : 0 < (BitVec.ofNat 5 (text s.cfg.tieMode (s16 (rawWord s.sp))).length).toNat := by
    rw [dlen_text_toNat, text_length]; omega
  rw [s.decodeAndFormat_dispCap]
  constructor
  case tvalid_data => exact fun _ => ⟨h.decode_rxcnt hp, hc, rfl, hlen⟩
  all_goals simp [h.decode_op hp]

theorem State.Move.inv {s t : State} (hm : s.Move t) (h : s.Inv) : t.Inv := by
  cases hm with
  | stay => exact h
  | accept o _ ho => exact s.accept_inv ho
  | illegal _ => exact s.illegal_inv
  | fail hr => exact (h.running (State.phase_ne_idle_of_request hr)).finish_inv (.inr (.inl rfl))
  | presence hp =>
    exact ((h.running (by simp [hp])).enter _).inv nofun nofun fun _ => h.early (.inl hp)
  | skipAck hp =>
    exact ((h.running (by simp [hp])).enter _).inv nofun nofun fun _ => h.early (.inr (.inl hp))
  | convertAck hp ho => exact (h.running (by simp [hp])).finish_inv (.inl ⟨rfl, ho⟩)
  | readAck hp ho =>
    have hn : s.rxcnt = 0 := (h.early (.inr (.inr hp))).1
    exact ((h.running (by simp [hp])).enter _).inv (fun _ => ⟨ho, by simp [hn]⟩) nofun (by simp)
  | receive b hp => exact h.receive b hp
  | mismatch hp hc =>
    exact (h.running (by simp [hp])).finish_inv (.inr (.inr ⟨rfl, h.decode_op hp, h.decode_rxcnt hp, hc⟩))
  | decode hp hc => exact h.decode hp hc
  | reset => exact s.takeReset_inv

theorem step_keeps_inv {s t : State} (h : s.Inv) (hst : step s = .next t) : t.Inv := by
  obtain ⟨p, l, e, hm⟩ := step_move hst
  exact hm.inv (h.outside s.cfg p l s.busTrace e)

/-! ### The receive buffer -/

/-- The bytes received after one more was written behind them. -/
theorem take_succ_toList_set (sp : Vector Byte 9) (n : Nat) (h : n < 9) (b : Byte) :
    (sp.set n b).toList.take (n + 1) = sp.toList.take n ++ [b] := by
  have hl : n < (sp.toList.set n b).length := by simpa using h
  rw [Vector.toList_set, ← List.take_concat_get' _ _ hl, List.take_set_of_le le_rfl, List.getElem_set_self]

/-- The buffer with nothing received. -/
theorem State.ScratchInv.of_empty {s : State} (hsp : s.sp = Vector.replicate 9 0x00) (hn : s.rxcnt = 0)
    (hc : s.crc = 0x00) : s.ScratchInv where
  count := by simp [hn]
  crc_received := by simp [hn, hc]
  rest_zero := by simp [hsp]

/-- A received byte goes behind those before it, into the CRC and over a zero. -/
theorem State.ScratchInv.receive {s : State} (h : s.ScratchInv) (hn : s.rxcnt.toNat ≤ 8) (b : Byte) :
    (s.receive b).ScratchInv := by
  have hcount : (s.rxcnt + 1).toNat = s.rxcnt.toNat + 1 := by bv_omega
  have hlt : s.rxcnt.toNat < 9 := by omega
  constructor
  case count => rw [State.receive_rxcnt]; omega
  case crc_received =>
    rw [State.receive_crc, State.receive_sp, State.receive_rxcnt, hcount, sp_write _ _ hlt,
      take_succ_toList_set _ _ hlt, crc8_concat, ← h.crc_received]
  case rest_zero =>
    intro i hi hle
    rw [State.receive_rxcnt, hcount] at hle
    simp only [State.receive_sp, sp_write _ _ hlt]
    rw [Vector.getElem_set_ne _ _ (by omega)]
    exact h.rest_zero i hi (by omega)

theorem State.Move.scratchInv {s t : State} (hm : s.Move t) (hi : s.Inv) (h : s.ScratchInv) : t.ScratchInv := by
  cases hm with
  | accept _ _ _ => exact .of_empty rfl rfl rfl
  | illegal _ => exact .of_empty rfl rfl rfl
  | reset => exact .of_empty rfl rfl rfl
  | receive b hp => exact h.receive (hi.rx_rxcnt hp) b
  | decode _ _ => rw [s.decodeAndFormat_dispCap]; exact ⟨h.count, h.crc_received, h.rest_zero⟩
  | _ => exact ⟨h.count, h.crc_received, h.rest_zero⟩

/-! ### The display buffer -/

theorem State.DisplayInv.outside {s : State} (h : s.DisplayInv) (p : List HostOp) (l : List HostRec)
    (b : List Request) (e : List Event) :
    State.DisplayInv { s with host := p, hostLog := l, busTrace := b, events := e } :=
  ⟨h.length, h.content⟩

/-- Without a temperature nothing is asked of the display. -/
theorem State.DisplayInv.of_tvalid_false {s : State} (h : s.tvalid = false) : s.DisplayInv :=
  ⟨fun ht => by simp [h] at ht, fun ht => by simp [h] at ht⟩

/-- The decode step writes the text of the new raw word over a display of zeros. -/
theorem State.Inv.decode_displayInv {s : State} (h : s.Inv) (hp : s.phase = .decode) :
    (s.decodeAndFormat dispCap).DisplayInv := by
  obtain ⟨-, -, hzero⟩ := (h.running (by simp [hp])).no_temperature
  rw [s.decodeAndFormat_dispCap]
  constructor
  case length => exact fun _ => dlen_text_toNat _ _
  case content =>
    intro _ j hj
    simp only [State.finish_disp, State.finish_traw, State.finish_cfg, writeDisp_getElem, hzero,
      Vector.getElem_replicate, Nat.zero_le, true_and, Nat.zero_add, Nat.sub_zero]
    split
    · rfl
    · next hlt => rw [List.getD_eq_default _ _ (by omega)]

theorem State.Move.displayInv {s t : State} (hm : s.Move t) (hi : s.Inv) (h : s.DisplayInv) : t.DisplayInv := by
  cases hm with
  | accept _ _ _ => exact .of_tvalid_false rfl
  | illegal _ => exact .of_tvalid_false rfl
  | reset => exact .of_tvalid_false rfl
  | decode hp _ => exact hi.decode_displayInv hp
  | _ => exact ⟨h.length, h.content⟩

/-! ### The obligations -/

/-- Settles O44: each move of the block keeps the control invariant. -/
theorem stepKeepsControlInvariant : Obligations.StepKeepsControlInvariant :=
  fun _ _ h hst => step_keeps_inv h hst

/-- Settles O45: only the receive step changes the buffer other than by clearing it. -/
theorem stepKeepsScratchInvariant : Obligations.StepKeepsScratchInvariant := by
  intro s t hi h hst
  obtain ⟨p, l, e, hm⟩ := step_move hst
  exact hm.scratchInv (hi.outside s.cfg p l s.busTrace e) (h.outside s.cfg p l s.busTrace e)

/-- Settles O46: only the decode step sets `TVALID`, and it writes the text over zeros. -/
theorem stepKeepsDisplayInvariant : Obligations.StepKeepsDisplayInvariant := by
  intro s t hi h hst
  obtain ⟨p, l, e, hm⟩ := step_move hst
  exact hm.displayInv (hi.outside s.cfg p l s.busTrace e) (h.outside p l s.busTrace e)

/-- Settles O47: the loaded reset state is its own reset, and R38's list is part of the control invariant. -/
theorem reachableStatesMeetTheList : Obligations.ReachableStatesMeetTheList := by
  intro c host es n t hrun
  have hreset : State.Inv { State.reset with cfg := c, host := host, events := es } :=
    State.takeReset_inv { State.reset with cfg := c, host := host, events := es }
  have h : t.Inv := run_keeps (fun _ _ => step_keeps_inv) hreset hrun
  refine ⟨fun hv => ?_, fun hv => ?_, h.done_result.mp, h.decode_rxcnt, h.rx_rxcnt, h.early, fun hb => ?_⟩
  · obtain ⟨hp, hd, hr, ho⟩ := h.tvalid_end hv
    exact ⟨hp, hd, hr, ho, h.tvalid_data hv⟩
  · obtain ⟨htraw, hdlen, hdisp⟩ := h.no_temperature hv
    exact ⟨htraw, hdlen, by simp [hdisp]⟩
  · exact h.busy_done (by simpa [State.busy] using hb)

/-- Settles O41: the reset state's fields, and the two `UNIT` bytes of the host register map. -/
theorem resetValues : Obligations.ResetValues :=
  ⟨rfl, rfl, rfl, rfl, rfl, rfl, rfl, rfl, rfl, rfl, rfl, rfl, rfl, rfl, rfl⟩

/-- Settles O43: the reset state is what a reset step leaves. -/
theorem invariantsHoldAtReset : Obligations.InvariantsHoldAtReset :=
  ⟨State.reset.takeReset_inv, .of_empty rfl rfl rfl, .of_tvalid_false rfl⟩

end Sys2Proof.Machine
end

section
/-! PROOFS. The memory family (spec/20_memory.md): what the host's turn does to the block, who issues a request, and who writes
`TRAW`. -/

namespace Sys2Proof.Machine

/-! ### The host's turn -/

/-- A scheduled read is answered from the register map, with the schedule and the host's program moved on (R53). -/
theorem step_host_rd {s : State} {a : Nat} {rest : List HostOp} {es : List Event} (he : s.events = .host :: es)
    (hh : s.host = .rd a :: rest) : step s = hostRead a { s with events := es, host := rest } := by
  simp [step_cons he, turn, hostTurn, hh]

/-- A scheduled write is the write at its address, with the schedule moved on (R54, R100). -/
theorem step_host_wr {s : State} {a : Nat} {v : Byte} {rest : List HostOp} {es : List Event}
    (he : s.events = .host :: es) (hh : s.host = .wr a v :: rest) :
    step s = hostWrite a v rest { s with events := es } := by
  simp [step_cons he, turn, hostTurn, hh]

/-- The host's turn runs the command of a CTRL write in `IDLE`, or changes nothing but the host's own data (R53, R54, R100). -/
theorem hostTurn_command_or_stay {s t : State} (h : hostTurn s = .next t) :
    (∃ v rest, s.host = .wr 0x00 v :: rest ∧ s.phase = .idle ∧
      exec (decodeCtrl v) (({ s with host := rest }).record (.wr 0x00 v)) = .next t) ∨
    ∃ p l, t = { s with host := p, hostLog := l } := by
  rcases hostTurn_cases h with ⟨-, rfl⟩ | ⟨a, rest, -, -, rfl⟩ | ⟨v, rest, -, -, rfl⟩ | hcommand |
    ⟨a, v, rest, -, -, -, rfl⟩ | ⟨n, rest, -, rfl⟩ | ⟨rest, -, rfl⟩ | ⟨rest, -, rfl⟩
  · exact .inr ⟨_, _, rfl⟩
  · exact .inr ⟨_, _, rfl⟩
  · exact .inr ⟨_, _, rfl⟩
  · exact .inl hcommand
  all_goals exact .inr ⟨_, _, rfl⟩

/-! ### Who issues a request -/

/-- At most one request was issued between two states, and it is the one outstanding in the second (R64, R130). -/
def State.IssuesAtMostOne (s t : State) : Prop :=
  t.busTrace = s.busTrace ∨ ∃ q, t.busTrace = s.busTrace ++ [q] ∧ t.request = some q

/-- Entering a state issues the request of that state, if it has one. -/
theorem State.enter_issuesAtMostOne (s : State) (p : Phase) : s.IssuesAtMostOne (s.enter p) := by
  have htrace : (s.enter p).busTrace = s.busTrace ++ (s.enter p).request.toList := rfl
  cases hq : (s.enter p).request with
  | none => rw [hq] at htrace; exact .inl (htrace.trans (List.append_nil _))
  | some q => rw [hq] at htrace; exact .inr ⟨q, htrace, hq⟩

/-- An instruction enters at most one state, and only entering issues. -/
theorem exec_issuesAtMostOne {i : Instr} {s t : State} (h : exec i s = .next t) : s.IssuesAtMostOne t := by
  rcases exec_cases h with rfl | ⟨-, -, rfl⟩ | ⟨-, -, rfl⟩ | ⟨-, -, rfl⟩ | ⟨-, rfl⟩ | ⟨-, -, rfl⟩ |
    ⟨-, -, rfl⟩ | ⟨-, -, -, rfl⟩ | ⟨-, -, -, rfl⟩ | ⟨-, b, -, rfl⟩
  · exact .inl rfl
  · exact State.enter_issuesAtMostOne { s.clearOutputs with op := .start } .rst
  · exact State.enter_issuesAtMostOne { s.clearOutputs with op := .read } .rst
  · exact .inl rfl
  · exact .inl rfl
  · exact s.enter_issuesAtMostOne .txSkip
  · exact s.enter_issuesAtMostOne .txFunc
  · exact .inl rfl
  · exact s.enter_issuesAtMostOne .rx
  · exact State.enter_issuesAtMostOne
      { s with
        sp := s.sp.setIfInBounds s.rxcnt.toNat b, crc := crc8Byte s.crc b, rxcnt := s.rxcnt + 1 } _

/-- The engine's own step issues nothing (R146). -/
@[simp] theorem State.checkStep_busTrace (s : State) : s.checkStep.busTrace = s.busTrace := by
  rcases s.checkStep_cases with ⟨-, e⟩ | ⟨-, -, e⟩ | ⟨-, -, e⟩ <;> rw [e]
  · rfl
  · rw [s.decodeAndFormat_dispCap]; rfl

/-- A response is an instruction only to a state with a request outstanding (R131). -/
theorem State.request_isSome_of_awaiting {r : Response} {s : State} {i : Instr} (h : s.awaiting r = some i) :
    s.request.isSome := by
  rw [s.request_isSome_iff]
  rcases State.awaiting_some h with ⟨hp, -⟩ | ⟨hp, -⟩ | ⟨hp, ho, -⟩ | ⟨hp, ho, -⟩ | ⟨hp, -⟩ <;> simp [*]

/-- `IDLE` and `DECODE` have no request (R120). -/
theorem State.request_eq_none {s : State} (h : s.phase = .idle ∨ s.phase = .decode) : s.request = none := by
  rcases h with hp | hp <;> simp [State.request, hp]

/-! ### Who writes TRAW -/

/-- Of the instructions, only an accept or the reserved command writes `TRAW`, in `IDLE` (R60, R101). -/
theorem exec_traw {i : Instr} {s t : State} (h : exec i s = .next t) :
    t.traw = s.traw ∨ s.phase = .idle ∧ i ≠ .cmdNone := by
  rcases exec_cases h with rfl | ⟨hp, rfl, -⟩ | ⟨hp, rfl, -⟩ | ⟨hp, rfl, -⟩ | ⟨-, rfl⟩ | ⟨-, -, rfl⟩ |
    ⟨-, -, rfl⟩ | ⟨-, -, -, rfl⟩ | ⟨-, -, -, rfl⟩ | ⟨-, b, -, rfl⟩
  · exact .inl rfl
  · exact .inr ⟨hp, nofun⟩
  · exact .inr ⟨hp, nofun⟩
  · exact .inr ⟨hp, nofun⟩
  all_goals exact .inl rfl

/-- An answer does not write `TRAW`: it runs an instruction only while the block is busy (R60). -/
theorem answerTurn_traw {r : Response} {s t : State} (h : answerTurn r s = .next t) : t.traw = s.traw := by
  rcases answerTurn_cases h with ⟨-, rfl⟩ | ⟨i, hi, hx⟩
  · rfl
  · rcases exec_traw hx with htraw | ⟨hp, -⟩
    · exact htraw
    · exact absurd hp (State.phase_ne_idle_of_request (State.request_isSome_of_awaiting hi))

/-! ### The obligations -/

/-- Settles O51: only the command of a CTRL write in `IDLE` and the answer to an outstanding request run an instruction, and an
instruction issues at most one request. -/
theorem oneRequestAtATime : Obligations.OneRequestAtATime := by
  intro s t hst
  refine ⟨?_, State.request_eq_none⟩
  rcases step_cases hst with ⟨-, rfl⟩ | ⟨es, he, hturn⟩ | ⟨es, -, rfl⟩ | ⟨r, es, he, hturn⟩ | ⟨es, -, rfl⟩
  · exact .inl rfl
  · rcases hostTurn_command_or_stay hturn with ⟨v, rest, -, hp, hx⟩ | ⟨p, l, rfl⟩
    · exact (exec_issuesAtMostOne hx).imp_right fun ⟨q, htrace, hq⟩ => ⟨q, htrace, hq, .inl ⟨hp, es, he⟩⟩
    · exact .inl rfl
  · exact .inl (State.checkStep_busTrace _)
  · rcases answerTurn_cases hturn with ⟨-, rfl⟩ | ⟨i, hi, hx⟩
    · exact .inl rfl
    · have hsome : s.request.isSome := State.request_isSome_of_awaiting hi
      exact (exec_issuesAtMostOne hx).imp_right fun ⟨q, htrace, hq⟩ =>
        ⟨q, htrace, hq, .inr ⟨hsome, r, es, he⟩⟩
  · exact .inl rfl

/-- Settles O52: a turn that changes `TRAW` is a command in `IDLE` that is not NONE, a check step in `DECODE`, or reset. -/
theorem writersOfTraw : Obligations.WritersOfTraw := by
  intro s t hst hne
  rcases step_cases hst with ⟨-, rfl⟩ | ⟨es, he, hturn⟩ | ⟨es, he, rfl⟩ | ⟨r, es, -, hturn⟩ | ⟨es, he, -⟩
  · exact absurd rfl hne
  · rcases hostTurn_command_or_stay hturn with ⟨v, rest, hh, -, hx⟩ | ⟨p, l, rfl⟩
    · rcases exec_traw hx with htraw | ⟨hp, hcommand⟩
      · exact absurd htraw hne
      · exact .inl ⟨hp, es, v, rest, he, hh, hcommand⟩
    · exact absurd rfl hne
  · rcases State.checkStep_cases { s with events := es } with ⟨-, e⟩ | ⟨hp, -⟩ | ⟨hp, -⟩
    · exact absurd (congrArg State.traw e) hne
    · exact .inr (.inl ⟨hp, es, he⟩)
    · exact .inr (.inl ⟨hp, es, he⟩)
  · exact absurd (answerTurn_traw hturn) hne
  · exact .inr (.inr ⟨es, he⟩)

/-- Settles O13: the four host accesses, each run by its own branch of the host's turn. -/
theorem hostAccessSteps : Obligations.HostAccessSteps := by
  intro s a v rest es he
  refine ⟨fun hh ha => ⟨_, ?_, rfl, fun b => ?read⟩, fun hh hp => ?_, fun hh h0 ha => ⟨_, ?_, rfl, fun b => ?write⟩,
    fun hh ha => ?_⟩
  case read => exact memRead_outside s s.cfg rest _ s.busTrace es b
  case write => exact memRead_outside s s.cfg rest _ s.busTrace es b
  · rw [step_host_rd he hh, hostRead, if_pos ha]; rfl
  · rw [step_host_wr he hh, hostWrite, if_pos (by decide), if_pos rfl, if_pos hp]; rfl
  · rw [step_host_wr he hh, hostWrite, if_pos ha, if_neg h0]; rfl
  · have hout : ¬a < hostSpace := Nat.not_lt.mpr ha
    rcases hh with hh | hh
    · rw [step_host_rd he hh, hostRead, if_neg hout]
    · rw [step_host_wr he hh, hostWrite, if_neg hout]

end Sys2Proof.Machine
end

section
/-! PROOFS. The encodings (spec/30_encoding.md R70 to R79): CTRL words, transport records, and the step that runs the decoded
instruction. -/

namespace Sys2Proof

/-! ### CTRL words -/

/-- A CTRL word whose low two bits are `cmd` (R71). -/
theorem decodeCtrl_append (x : BitVec 6) (cmd : BitVec 2) :
    decodeCtrl (x ++ cmd) =
      if cmd = 0b00 then .cmdNone else if cmd = 0b01 then .start else if cmd = 0b10 then .read else .illegal := by
  simp only [decodeCtrl, BitVec.extractLsb'_append_eq_right]

/-- At the host port a word is one CTRL byte. -/
theorem decode_host (c : Config) (v : Byte) : decode c .host [v] = .ok (decodeCtrl v) := rfl

/-! ### Transport records -/

/-- At the transport port a response's record is read back, and the request's record decides the row. -/
theorem decode_transport (c : Config) (k b : Byte) (r : Response) :
    decode c .transport ([k, b] ++ encodeResponse r) = decodeRequest c k b r := by
  obtain ⟨rk, rv, hrecord, hdecode⟩ := decodeResponse_encodeResponse r
  simp [hrecord, decode, hdecode]

theorem decode_tReset (c : Config) (r : Response) :
    decode c .transport (encodeRequest .tReset ++ encodeResponse r) = .ok (.tReset r) :=
  decode_transport c 0 0 r

theorem decode_tRead (c : Config) (r : Response) :
    decode c .transport (encodeRequest .tRead ++ encodeResponse r) = .ok (.tRead r) :=
  decode_transport c 2 0 r

theorem decode_tWrite (c : Config) (b : Byte) (r : Response) :
    decode c .transport (encodeRequest (.tWrite b) ++ encodeResponse r) = decodeBusByte c b r :=
  decode_transport c 1 b r

theorem decodeBusByte_skipRom (c : Config) (r : Response) : decodeBusByte c c.cmdSkipRom r = .ok (.skipRom r) :=
  if_pos rfl

theorem decodeBusByte_convertT {c : Config} (h : c.wellFormed = true) (r : Response) :
    decodeBusByte c c.cmdConvertT r = .ok (.convertT r) := by
  obtain ⟨hsc, -, -⟩ := c.wellFormed_iff.mp h
  simp [decodeBusByte, hsc.symm]

theorem decodeBusByte_readScratchpad {c : Config} (h : c.wellFormed = true) (r : Response) :
    decodeBusByte c c.cmdReadScratchpad r = .ok (.readScratchpad r) := by
  obtain ⟨-, hsr, hcr⟩ := c.wellFormed_iff.mp h
  simp [decodeBusByte, hsr.symm, hcr.symm]

/-- Under bus bytes that differ the encoder's words decode to the instruction (R79). -/
theorem decode_encode {c : Config} (h : c.wellFormed = true) (i : Instr) :
    decode c (encode c i).1 (encode c i).2 = .ok i := by
  cases i with
  | cmdNone => rfl
  | start => rfl
  | read => rfl
  | illegal => rfl
  | skipRom r => exact (decode_tWrite c _ r).trans (decodeBusByte_skipRom c r)
  | convertT r => exact (decode_tWrite c _ r).trans (decodeBusByte_convertT h r)
  | readScratchpad r => exact (decode_tWrite c _ r).trans (decodeBusByte_readScratchpad h r)
  | tReset r => exact decode_tReset c r
  | tRead r => exact decode_tRead c r

end Sys2Proof

namespace Sys2Proof.Machine

/-! ### The words at the block's ports -/

/-- What stands at the ports: a CTRL byte the host writes in `IDLE`, or the outstanding request with its answer. -/
theorem State.fetch_cases {s : State} {p : Port} {bs : List Byte} (h : s.fetch = some (p, bs)) :
    (∃ v rest es, s.events = .host :: es ∧ s.host = .wr 0x00 v :: rest ∧ s.phase = .idle ∧ p = .host ∧ bs = [v]) ∨
    (∃ r es q, s.events = .answer r :: es ∧ s.request = some q ∧ p = .transport ∧
      bs = encodeRequest q ++ encodeResponse r) := by
  unfold State.fetch at h
  split at h
  · next es he =>
    split at h
    · next a v rest hh =>
      split at h
      · next hc =>
        obtain ⟨rfl, hp⟩ := hc
        cases h
        exact .inl ⟨v, rest, es, he, hh, hp, rfl, rfl⟩
      · cases h
    · cases h
  · next r es he =>
    obtain ⟨q, hq, hw⟩ := Option.map_eq_some_iff.mp h
    cases hw
    exact .inr ⟨r, es, q, he, hq, rfl, rfl⟩
  · cases h

/-- The row a state awaits is encoded as its outstanding request and the answer (R79, R120). -/
theorem State.awaiting_encode {s : State} {q : Request} (r : Response) (h : s.request = some q) :
    ∃ i, s.awaiting r = some i ∧ encode s.cfg i = (.transport, encodeRequest q ++ encodeResponse r) := by
  unfold State.request at h
  unfold State.awaiting
  cases hp : s.phase with
  | idle => simp [hp] at h
  | decode => simp [hp] at h
  | txFunc =>
    cases ho : s.op with
    | none => simp [hp, ho, func] at h
    | _ => simp only [hp, ho] at h ⊢; cases h; exact ⟨_, rfl, rfl⟩
  | _ => simp only [hp] at h ⊢; cases h; exact ⟨_, rfl, rfl⟩

theorem State.advance_host {s : State} {a : Nat} {v : Byte} {rest : List HostOp} {es : List Event}
    (he : s.events = .host :: es) (hh : s.host = .wr a v :: rest) :
    s.advance = ({ s with events := es, host := rest }).record (.wr a v) := by
  simp [State.advance, he, hh]

theorem State.advance_answer {s : State} {r : Response} {es : List Event} (he : s.events = .answer r :: es) :
    s.advance = { s with events := es } := by
  simp [State.advance, he]

/-! ### The obligations -/

/-- Settles O8: one case per row; a bus row's byte is told from the others by the parameters' well-formedness. -/
theorem decodeOfEncodeIsTheInstruction : Obligations.DecodeOfEncodeIsTheInstruction :=
  fun _ i hc _ => decode_encode hc i

/-- Settles O7: a CTRL word is six ignored bits over `CMD`. -/
theorem cmdSelectsTheCommand : Obligations.CmdSelectsTheCommand := by
  refine ⟨fun v => ⟨?_, ?_, ?_, ?_⟩, fun cmd x y => ?_, fun s => rfl⟩
  case refine_5 => rw [decodeCtrl_append, decodeCtrl_append]
  all_goals intro h; simp [decodeCtrl, h]

/-- Settles O9: the decoder computes each word. -/
theorem sampleWordsDecode : Obligations.SampleWordsDecode :=
  ⟨rfl, rfl, rfl, rfl, rfl, rfl, rfl, rfl, rfl, rfl, rfl⟩

/-- Settles O10: at the host port both sides run the CTRL write's command; at the transport port the words are the encoding of
the row the state awaits. -/
theorem stepRunsTheDecodedInstruction : Obligations.StepRunsTheDecodedInstruction := by
  intro s p bs i hfetch hdecode hc
  rcases State.fetch_cases hfetch with ⟨v, rest, es, he, hh, hp, rfl, rfl⟩ | ⟨r, es, q, he, hq, rfl, rfl⟩
  · rw [decode_host] at hdecode
    cases hdecode
    rw [step_host_wr he hh, State.advance_host he hh, hostWrite, if_pos (by decide), if_pos rfl, if_pos hp]
  · obtain ⟨j, hj, hencode⟩ := State.awaiting_encode r hq
    have hi : i = j := by
      have hback := decode_encode (hc rfl) j
      rw [hencode, hdecode] at hback
      exact Except.ok.inj hback
    have hawait : State.awaiting r { s with events := es } = some i := hi ▸ hj
    rw [step_cons he, turn, answerTurn, hawait, State.advance_answer he]

end Sys2Proof.Machine
end

section
/-! PROOFS. The words the host reads (spec/30_encoding.md R72 to R74): STATUS, FSM and the register map. -/

namespace Sys2Proof.Machine

/-! ### STATUS and FSM -/

/-- The layout of STATUS (R72), for each of the 64 values of its fields. -/
theorem statusBits_layout (result : Result) (tvalid done busy : Bool) :
    (statusBits result tvalid done busy).getLsbD 0 = busy ∧ (statusBits result tvalid done busy).getLsbD 1 = done ∧
    (statusBits result tvalid done busy).getLsbD 2 = tvalid ∧ (statusBits result tvalid done busy).getLsbD 3 = false ∧
    (statusBits result tvalid done busy).extractLsb' 4 3 = result.code ∧
    (statusBits result tvalid done busy).getLsbD 7 = false := by
  unfold statusBits
  generalize result.code = code
  revert code tvalid done busy
  decide

/-- The layout of FSM (R73), for each of the 32 values of its fields. -/
theorem fsmBits_layout (op : Op) (phase : Phase) :
    (fsmBits op phase).extractLsb' 0 3 = phase.code ∧ (fsmBits op phase).getLsbD 3 = false ∧
    (fsmBits op phase).extractLsb' 4 2 = op.code ∧ (fsmBits op phase).extractLsb' 6 2 = 0b00 := by
  unfold fsmBits
  generalize op.code = opCode
  generalize phase.code = phaseCode
  revert opCode phaseCode
  decide

/-- There is a temperature exactly after a READ that ended with `OK`. -/
theorem State.Inv.tvalid_iff {s : State} (h : s.Inv) : s.tvalid = true ↔ s.result = .ok ∧ s.op = .read := by
  refine ⟨fun hv => ?_, fun ⟨hr, ho⟩ => h.read_ok hr ho⟩
  obtain ⟨-, -, hr, ho⟩ := h.tvalid_end hv
  exact ⟨hr, ho⟩

/-- STATUS while a command runs (R72). -/
theorem State.Inv.statusWord_busy {s : State} (h : s.Inv) (hp : s.phase ≠ .idle) : s.statusWord = 0x01 := by
  have hrun := h.running hp
  rw [State.statusWord, hrun.result, hrun.tvalid, hrun.done, State.busy, decide_eq_true hp]
  rfl

/-- STATUS in `IDLE` shows the result, and `DONE` and `TVALID` follow from it and from `OP`. -/
theorem State.Inv.statusWord_idle {s : State} (h : s.Inv) (hp : s.phase = .idle) :
    s.statusWord =
      statusBits s.result (decide (s.result = .ok) && decide (s.op = .read)) (decide (s.result ≠ .none)) false := by
  have hbusy : s.busy = false := by simp [State.busy, hp]
  have hdone : s.done = decide (s.result ≠ .none) := by
    rw [Bool.eq_iff_iff, decide_eq_true_iff, Ne, ← h.done_result, Bool.not_eq_false]
  have htvalid : s.tvalid = (decide (s.result = .ok) && decide (s.op = .read)) := by
    rw [Bool.eq_iff_iff, Bool.and_eq_true, decide_eq_true_iff, decide_eq_true_iff, h.tvalid_iff]
  rw [State.statusWord, hbusy, hdone, htvalid]

theorem State.Inv.statusWord_of_ne_ok {s : State} (h : s.Inv) (hp : s.phase = .idle) {r : Result}
    (hr : s.result = r) (hok : r ≠ .ok) : s.statusWord = statusBits r false (decide (r ≠ .none)) false := by
  rw [h.statusWord_idle hp, hr, decide_eq_false hok, Bool.false_and]

/-- STATUS after a START that ended with `OK` (R72). -/
theorem State.Inv.statusWord_start_ok {s : State} (h : s.Inv) (hp : s.phase = .idle) (ho : s.op = .start)
    (hr : s.result = .ok) : s.statusWord = 0x12 := by
  rw [h.statusWord_idle hp, hr, ho]
  rfl

/-- STATUS after a READ that ended with `OK` (R72). -/
theorem State.Inv.statusWord_read_ok {s : State} (h : s.Inv) (hp : s.phase = .idle) (ho : s.op = .read)
    (hr : s.result = .ok) : s.statusWord = 0x16 := by
  rw [h.statusWord_idle hp, hr, ho]
  rfl

/-- The STATUS values a host can read (R72). -/
theorem State.Inv.statusWord_values {s : State} (h : s.Inv) :
    s.statusWord ∈ [0x00, 0x01, 0x16, 0x12, 0x22, 0x32, 0x42] := by
  by_cases hp : s.phase = .idle
  · cases hr : s.result with
    | formatOverflow => exact absurd hr h.no_overflow
    | ok =>
      rcases h.ok_op hr with ho | ho
      · simp [h.statusWord_start_ok hp ho hr]
      · simp [h.statusWord_read_ok hp ho hr]
    | _ => rw [h.statusWord_of_ne_ok hp hr nofun]; decide
  · simp [h.statusWord_busy hp]

/-! ### The register map -/

/-- `SP[i]` is read at 0x08 + i (R51). -/
theorem memRead_sp (s : State) (i : Nat) (h : i < 9) : s.memRead (0x08 + i) = s.sp[i] := by
  rw [State.memRead, if_neg, if_neg, if_neg, if_neg, if_neg, if_neg, if_neg, dif_pos (by omega)]
  · simp only [Nat.add_sub_cancel_left]
  all_goals omega

/-- `DISP[j]` is read at 0x20 + j (R51). -/
theorem memRead_disp (s : State) (j : Nat) (h : j < 16) : s.memRead (0x20 + j) = s.disp[j] := by
  rw [State.memRead, if_neg, if_neg, if_neg, if_neg, if_neg, if_neg, if_neg, dif_neg, dif_pos (by omega)]
  · simp only [Nat.add_sub_cancel_left]
  all_goals omega

/-- The reserved addresses read 0x00 (R51). -/
theorem memRead_reserved (s : State) (a : Nat) (h : 0x11 ≤ a ∧ a ≤ 0x1F ∨ 0x32 ≤ a) : s.memRead a = 0x00 := by
  rw [State.memRead, if_neg, if_neg, if_neg, if_neg, if_neg, if_neg, if_neg, dif_neg, dif_neg, if_neg, if_neg] <;>
    omega

/-! ### The obligations -/

/-- Settles O11: the layouts, and the invariant fixes each field of STATUS by state, command and result. -/
theorem statusAndFsmWords : Obligations.StatusAndFsmWords := by
  refine ⟨rfl, rfl, fun s => ⟨rfl, rfl, ?_⟩⟩
  obtain ⟨hbusy, hdone, htvalid, hzero, hresult, htop⟩ := statusBits_layout s.result s.tvalid s.done s.busy
  obtain ⟨hphase, hfsmZero, hop, hfsmTop⟩ := fsmBits_layout s.op s.phase
  refine ⟨hbusy, hdone, htvalid, hzero, hresult, htop, hphase, hfsmZero, hop, hfsmTop, fun h => ?_⟩
  exact ⟨h.statusWord_busy, fun hp hd => h.statusWord_of_ne_ok hp (h.done_result.mp hd) nofun,
    h.statusWord_read_ok, h.statusWord_start_ok, fun hp hr => h.statusWord_of_ne_ok hp hr nofun,
    fun hp hr => h.statusWord_of_ne_ok hp hr nofun, fun hp hr => h.statusWord_of_ne_ok hp hr nofun,
    h.statusWord_values⟩

/-- Settles O12. -/
theorem hostRegisterMap : Obligations.HostRegisterMap := by
  refine ⟨fun s => ⟨rfl, rfl, rfl, rfl, rfl, rfl, rfl, rfl, memRead_sp s, fun a ha ha' => ?_, memRead_disp s, rfl, rfl,
    fun a ha _ => ?_⟩, ?_⟩
  · exact memRead_reserved s a (.inl ⟨ha, ha'⟩)
  · exact memRead_reserved s a (.inr ha)
  · decide

end Sys2Proof.Machine
end

section
/-! PROOFS. The host agent's other operations (spec/30_encoding.md R83, R84): waits, polls, text reads and `GET_TEMP`. -/

namespace Sys2Proof.Machine

/-! ### One turn of each operation -/

/-- A scheduled wait goes into the host's record only (R84). -/
theorem step_host_waitMs {s : State} {n : Nat} {rest : List HostOp} {es : List Event} (he : s.events = .host :: es)
    (hh : s.host = .waitMs n :: rest) :
    step s = .next { s with events := es, host := rest, hostLog := s.hostLog ++ [.waited n] } := by
  simp [step_cons he, turn, hostTurn, hh, State.record]

/-- `BUSY` is bit 0 of STATUS (R72). -/
theorem State.statusWord_bit_zero (s : State) : s.statusWord.getLsbD 0 = s.busy :=
  (statusBits_layout s.result s.tvalid s.done s.busy).1

/-- A poll reads STATUS and stays in the program while the block is busy (R84). -/
theorem pollStatus_eq (rest : List HostOp) (s : State) :
    pollStatus rest s =
      State.record (.rd 0x01 s.statusWord) { s with host := if s.phase = .idle then rest else .poll :: rest } := by
  simp only [pollStatus, memRead_status, State.statusWord_bit_zero, State.busy, decide_eq_true_eq, ne_eq, ite_not]

theorem step_host_poll {s : State} {rest : List HostOp} {es : List Event} (he : s.events = .host :: es)
    (hh : s.host = .poll :: rest) : step s = .next (pollStatus rest { s with events := es }) := by
  simp only [step_cons he, turn, hostTurn, hh]

/-- A scheduled `rdText` becomes the reads of as many text bytes as the byte read last says (R84). -/
theorem step_host_rdText {s : State} {rest : List HostOp} {es : List Event} (he : s.events = .host :: es)
    (hh : s.host = .rdText :: rest) :
    step s = .next { s with events := es, host := textReads s.lastRead.toNat ++ rest } := by
  simp only [step_cons he, turn, hostTurn, hh]
  rfl

/-- The last byte read is the one the record ends with. -/
theorem State.lastRead_of_hostLog {s : State} {before : List HostRec} {a : Nat} {b : Byte}
    (h : s.hostLog = before ++ [.rd a b]) : s.lastRead = b := by
  simp [State.lastRead, h]

/-! ### Several reads in a row -/

/-- The state after the host has read these addresses, as many turns of the schedule being used up. -/
def State.afterReads (s : State) (as : List Nat) (rest : List HostOp) (es : List Event) : State :=
  { s with host := rest, events := es, hostLog := s.hostLog ++ as.map fun a => .rd a (s.memRead a) }

/-- A run of scheduled reads changes nothing of the block, so each read returns the byte of the first state's map (R53). -/
theorem run_reads (as : List Nat) {s : State} {rest : List HostOp} {es : List Event} (ha : ∀ a ∈ as, a < hostSpace)
    (hh : s.host = as.map .rd ++ rest) (he : s.events = List.replicate as.length .host ++ es) :
    run as.length s = .next (s.afterReads as rest es) := by
  induction as generalizing s with
  | nil =>
    simp only [List.map_nil, List.nil_append, List.length_nil, List.replicate_zero] at hh he
    simp [State.afterReads, ← hh, ← he]
  | cons a as ih =>
    obtain ⟨ha0, has⟩ := List.forall_mem_cons.mp ha
    have hstep := step_host_rd he hh
    rw [hostRead, if_pos ha0] at hstep
    rw [List.length_cons, run_succ_of_next hstep, ih has rfl rfl]
    simp [State.afterReads, memRead_outside]

theorem State.afterReads_append (s : State) (as bs : List Nat) (p rest : List HostOp) (e es : List Event) :
    (s.afterReads as p e).afterReads bs rest es = s.afterReads (as ++ bs) rest es := by
  simp [State.afterReads, memRead_outside]

theorem State.lastRead_afterReads (s : State) (as : List Nat) (a : Nat) (rest : List HostOp) (es : List Event) :
    (s.afterReads (as ++ [a]) rest es).lastRead = s.memRead a :=
  State.lastRead_of_hostLog (before := s.hostLog ++ as.map fun a => .rd a (s.memRead a)) (a := a)
    (by simp [State.afterReads])

/-- The addresses of `DISP0` to `DISP(n-1)` (R51). -/
def dispAddrs (n : Nat) : List Nat := (List.range n).map fun j => 0x20 + j

theorem dispAddrs_length (n : Nat) : (dispAddrs n).length = n := by simp [dispAddrs]

theorem textReads_eq (n : Nat) : textReads n = (dispAddrs n).map .rd := by
  simp [textReads, dispAddrs]

theorem dispAddrs_lt {n : Nat} (hn : n ≤ 16) : ∀ a ∈ dispAddrs n, a < hostSpace := by
  intro a ha
  obtain ⟨j, hj, rfl⟩ := List.mem_map.mp ha
  have := List.mem_range.mp hj
  simp only [hostSpace_eq]
  omega

/-- The expansion of `rdText` and the reads of the text take one turn and as many as the byte read last says. -/
theorem run_rdText {s : State} {n : Nat} {rest : List HostOp} {es : List Event} (hlast : s.lastRead.toNat = n)
    (hn : n ≤ 16) (hh : s.host = .rdText :: rest) (he : s.events = List.replicate (n + 1) .host ++ es) :
    run (n + 1) s = .next (s.afterReads (dispAddrs n) rest es) := by
  have hexpand := step_host_rdText he hh
  rw [hlast, textReads_eq] at hexpand
  have hreads := run_reads (dispAddrs n) (dispAddrs_lt hn)
    (s := { s with events := List.replicate n .host ++ es, host := (dispAddrs n).map .rd ++ rest })
    (rest := rest) (es := es) rfl (by rw [dispAddrs_length])
  rw [dispAddrs_length] at hreads
  exact (run_succ_of_next hexpand).trans hreads

theorem memRead_dlen_toNat (s : State) : (s.memRead 0x06).toNat = s.dlen.toNat :=
  BitVec.toNat_setWidth_of_le (b := s.dlen) (w' := 8) (by decide)

/-- `GET_TEMP` reads the two bytes of `TRAW`, `DLEN` and as many display bytes as `DLEN` says (R84). -/
theorem run_getTemp {s : State} {rest : List HostOp} {es : List Event} (hn : s.dlen.toNat ≤ 16)
    (hh : s.host = HostOp.getTemp ++ rest) (he : s.events = List.replicate (4 + s.dlen.toNat) .host ++ es) :
    run (4 + s.dlen.toNat) s = .next (s.afterReads ([0x02, 0x03, 0x06] ++ dispAddrs s.dlen.toNat) rest es) := by
  have hcount : 4 + s.dlen.toNat = 3 + (s.dlen.toNat + 1) := by omega
  rw [hcount, List.replicate_add, List.append_assoc] at he
  have hfirst := run_reads [0x02, 0x03, 0x06] (by decide) hh he
  have hlast := congrArg BitVec.toNat (s.lastRead_afterReads [0x02, 0x03] 0x06 (.rdText :: rest)
    (List.replicate (s.dlen.toNat + 1) .host ++ es))
  rw [memRead_dlen_toNat] at hlast
  rw [hcount]
  refine (run_add_of_next hfirst).trans ((run_rdText hlast hn rfl rfl).trans ?_)
  exact congrArg Host.Outcome.next (State.afterReads_append s _ _ _ _ _ _)

/-- `DLEN` is at most 13 on a valid temperature (R167). -/
theorem State.DisplayInv.dlen_le {s : State} (h : s.DisplayInv) (hv : s.tvalid = true) : s.dlen.toNat ≤ 13 :=
  (h.length hv).le.trans (text_length_le _ _)

/-- The display bytes read on a valid temperature are those of its text (R168). -/
theorem State.DisplayInv.reads_text {s : State} (h : s.DisplayInv) (hv : s.tvalid = true) :
    (dispAddrs s.dlen.toNat).map (fun a => HostRec.rd a (s.memRead a)) =
      (List.range s.dlen.toNat).map fun j => .rd (0x20 + j) ((text s.cfg.tieMode (s16 s.traw)).getD j 0x00) := by
  rw [dispAddrs, List.map_map]
  refine List.map_congr_left fun j hj => ?_
  have hlt : j < 16 := (List.mem_range.mp hj).trans_le ((h.dlen_le hv).trans (by decide))
  rw [Function.comp_apply, memRead_disp s j hlt, h.content hv j hlt]

/-! ### The obligations -/

/-- Settles O14: the three turns; bit 0 of STATUS is `BUSY`, and the byte read last stands at the end of the record. -/
theorem hostWaitPollAndTextTurns : Obligations.HostWaitPollAndTextTurns := by
  intro s rest es he
  refine ⟨fun n hh => step_host_waitMs he hh, fun hh => ?_, fun before a b hh hlog => ?_⟩
  · rw [step_host_poll he hh, pollStatus_eq]; rfl
  · rw [step_host_rdText he hh, State.lastRead_of_hostLog hlog]; rfl

/-- Settles O60: the reads of `GET_TEMP`, whose display bytes are the text by the display invariant. -/
theorem getTempReadsTheText : Obligations.GetTempReadsTheText := by
  intro s rest es _ hdisp hv hh he
  have hn : s.dlen.toNat ≤ 16 := (hdisp.dlen_le hv).trans (by decide)
  refine ⟨_, run_getTemp hn hh he, rfl, rfl, ?_⟩
  rw [← hdisp.reads_text hv, List.append_assoc]
  rfl

end Sys2Proof.Machine
end

section
/-! PROOFS. The bus command bytes (spec/92_eei_decisions.md D12): replacing them by zero, in the parameters and in the bus
trace, commutes with every step. -/

namespace Sys2Proof

/-- A request with its bus byte hidden. -/
def Request.hideCode : Request → Request
  | .tReset => .tReset
  | .tWrite _ => .tWrite 0x00
  | .tRead => .tRead

/-- The parameters with their three bus bytes hidden. -/
def Config.hideCodes (c : Config) : Config :=
  { cmdSkipRom := 0x00, cmdConvertT := 0x00, cmdReadScratchpad := 0x00, tieMode := c.tieMode }

end Sys2Proof

namespace Sys2Proof.Machine

/-- A state with the bus bytes hidden where they are seen: in the parameters and in the bus trace. -/
def State.hideCodes (s : State) : State :=
  { s with cfg := s.cfg.hideCodes, busTrace := s.busTrace.map Request.hideCode }

/-- The outcome of a step with the bus bytes hidden in the next state. -/
def hideOutcome : Host.Outcome State Fault Refusal → Host.Outcome State Fault Refusal
  | .next s => .next s.hideCodes
  | .fault r => .fault r
  | .refused r => .refused r

@[simp] theorem hideOutcome_next (s : State) : hideOutcome (.next s) = .next s.hideCodes := rfl
@[simp] theorem hideOutcome_refused (r : Refusal) : hideOutcome (.refused r) = .refused r := rfl

/-! ### The shared operations -/

theorem State.hideCodes_request (s : State) : s.hideCodes.request = s.request.map Request.hideCode := by
  unfold State.request
  cases hp : s.phase with
  | txFunc => cases ho : s.op <;> simp [State.hideCodes, hp, ho, func, Request.hideCode, Config.hideCodes]
  | _ => simp [State.hideCodes, hp, Request.hideCode, Config.hideCodes]

/-- Entering a state issues the same request, up to its bus byte. -/
theorem State.hideCodes_enter (p : Phase) (s : State) : (s.enter p).hideCodes = s.hideCodes.enter p := by
  have htrace : (s.busTrace ++ (State.request { s with phase := p }).toList).map Request.hideCode =
      s.busTrace.map Request.hideCode ++ (State.request { s.hideCodes with phase := p }).toList := by
    rw [List.map_append, ← Option.toList_map, ← State.hideCodes_request]
    rfl
  exact congrArg (fun trace => { s with phase := p, cfg := s.cfg.hideCodes, busTrace := trace }) htrace

theorem State.hideCodes_finish (code : Result) (s : State) : (s.finish code).hideCodes = s.hideCodes.finish code := rfl

theorem State.hideCodes_accept (o : Op) (s : State) : (s.accept o).hideCodes = s.hideCodes.accept o :=
  State.hideCodes_enter .rst { s.clearOutputs with op := o }

theorem State.hideCodes_accept_of_idle (o : Op) (s : State) :
    State.hideCodes (if s.phase = .idle then s.accept o else s) =
      if s.hideCodes.phase = .idle then s.hideCodes.accept o else s.hideCodes := by
  rw [← State.hideCodes_accept]
  exact apply_ite State.hideCodes _ _ _

theorem State.hideCodes_receive (b : Byte) (s : State) : (s.receive b).hideCodes = s.hideCodes.receive b :=
  State.hideCodes_enter _
    { s with sp := s.sp.setIfInBounds s.rxcnt.toNat b, crc := crc8Byte s.crc b, rxcnt := s.rxcnt + 1 }

theorem State.hideCodes_respond {k : State → State} {s : State} (hk : (k s).hideCodes = k s.hideCodes) (o e : Bool) :
    (s.respond o e k).hideCodes = s.hideCodes.respond o e k := by
  cases o with
  | false => rfl
  | true => cases e with
    | false => rfl
    | true => exact hk

/-- The decode reads the tie mode, and none of the bus bytes. -/
theorem State.hideCodes_decodeAndFormat (s : State) :
    (s.decodeAndFormat dispCap).hideCodes = s.hideCodes.decodeAndFormat dispCap := by
  rw [s.decodeAndFormat_dispCap, s.hideCodes.decodeAndFormat_dispCap]
  simp only [State.hideCodes, State.finish, Config.hideCodes]

theorem State.hideCodes_checkStep (s : State) : s.checkStep.hideCodes = s.hideCodes.checkStep := by
  unfold State.checkStep
  rw [apply_ite State.hideCodes, apply_ite State.hideCodes, State.hideCodes_decodeAndFormat]
  rfl

/-! ### Instructions and turns -/

theorem exec_hideCodes (i : Instr) (s : State) : exec i s.hideCodes = hideOutcome (exec i s) := by
  symm
  cases i with
  | cmdNone => rfl
  | start => exact congrArg Host.Outcome.next (s.hideCodes_accept_of_idle .start)
  | read => exact congrArg Host.Outcome.next (s.hideCodes_accept_of_idle .read)
  | illegal => exact congrArg Host.Outcome.next (apply_ite State.hideCodes _ _ _)
  | tReset r => exact congrArg Host.Outcome.next (State.hideCodes_respond (s.hideCodes_enter .txSkip) _ _)
  | skipRom r => exact congrArg Host.Outcome.next (State.hideCodes_respond (s.hideCodes_enter .txFunc) _ _)
  | convertT r => exact congrArg Host.Outcome.next (State.hideCodes_respond (s.hideCodes_finish .ok) _ _)
  | readScratchpad r => exact congrArg Host.Outcome.next (State.hideCodes_respond (s.hideCodes_enter .rx) _ _)
  | tRead r =>
    cases r with
    | data b => exact congrArg Host.Outcome.next (State.hideCodes_respond (s.hideCodes_receive b) _ _)
    | _ => exact congrArg Host.Outcome.next (State.hideCodes_respond (k := id) rfl _ _)

theorem hostRead_hideCodes (a : Nat) (s : State) : hostRead a s.hideCodes = hideOutcome (hostRead a s) := by
  unfold hostRead
  rw [apply_ite hideOutcome]
  rfl

theorem hostWrite_hideCodes (a : Nat) (v : Byte) (rest : List HostOp) (s : State) :
    hostWrite a v rest s.hideCodes = hideOutcome (hostWrite a v rest s) := by
  unfold hostWrite
  rw [apply_ite hideOutcome, apply_ite hideOutcome, apply_ite hideOutcome, ← exec_hideCodes]
  rfl

theorem hostTurn_hideCodes (s : State) : hostTurn s.hideCodes = hideOutcome (hostTurn s) := by
  have hhost : s.hideCodes.host = s.host := rfl
  unfold hostTurn
  rw [hhost]
  cases hh : s.host with
  | nil => rfl
  | cons op rest =>
    cases op with
    | rd a => exact hostRead_hideCodes a { s with host := rest }
    | wr a v => exact hostWrite_hideCodes a v rest s
    | waitMs n => rfl
    | poll => rfl
    | rdText => rfl

theorem answerTurn_hideCodes (r : Response) (s : State) :
    answerTurn r s.hideCodes = hideOutcome (answerTurn r s) := by
  have hawait : s.hideCodes.awaiting r = s.awaiting r := rfl
  unfold answerTurn
  rw [hawait]
  cases s.awaiting r with
  | some i => exact exec_hideCodes i s
  | none =>
    rw [apply_ite hideOutcome]
    rfl

theorem step_hideCodes (s : State) : step s.hideCodes = hideOutcome (step s) := by
  have hevents : s.hideCodes.events = s.events := rfl
  unfold step
  rw [hevents]
  cases s.events with
  | nil => rfl
  | cons e es =>
    cases e with
    | host => exact hostTurn_hideCodes { s with events := es }
    | engine => exact congrArg Host.Outcome.next (State.hideCodes_checkStep { s with events := es }).symm
    | answer r => exact answerTurn_hideCodes r { s with events := es }
    | reset => rfl
    | secondDriver => rfl

/-! ### The parameters -/

theorem State.Move.cfg_eq {s t : State} (hm : s.Move t) : t.cfg = s.cfg := by
  cases hm with
  | decode _ _ => rw [s.decodeAndFormat_dispCap]; rfl
  | _ => rfl

/-- No step writes the parameters (R66, R242). -/
theorem step_cfg {s t : State} (h : step s = .next t) : t.cfg = s.cfg := by
  obtain ⟨p, l, e, hm⟩ := step_move h
  exact hm.cfg_eq

/-- A state is fixed by what is left when its bus bytes are hidden, its parameters and its bus trace. -/
theorem State.eq_of_hideCodes_eq {t u : State} (h : u.hideCodes = t.hideCodes) :
    u = { t with cfg := u.cfg, busTrace := u.busTrace } :=
  congrArg (fun x : State => { x with cfg := u.cfg, busTrace := u.busTrace }) h

/-- Parameters with the same tie mode show the same step, up to the bus bytes. -/
theorem step_withCodes {s t : State} {c : Config} (hc : c.tieMode = s.cfg.tieMode) (h : step s = .next t) :
    ∃ u, step { s with cfg := c } = .next u ∧ u.hideCodes = t.hideCodes := by
  have hsame : State.hideCodes { s with cfg := c } = s.hideCodes := by
    simp only [State.hideCodes, Config.hideCodes, hc]
  have hstep : hideOutcome (step { s with cfg := c }) = .next t.hideCodes := by
    rw [← step_hideCodes, hsame, step_hideCodes, h]
    rfl
  cases hu : step { s with cfg := c } with
  | next u => rw [hu] at hstep; exact ⟨u, rfl, Host.Outcome.next.inj hstep⟩
  | fault r => cases r
  | refused r => rw [hu] at hstep; cases hstep

/-! ### The obligation -/

/-- Settles O56: the two steps agree up to the bus bytes, neither writes the parameters, and a trace that grows by at most one
request stays when its length does. -/
theorem resultsDoNotDependOnBusCodes : Obligations.ResultsDoNotDependOnBusCodes := by
  intro s t c hc h
  obtain ⟨u, hu, hsame⟩ := step_withCodes hc h
  have hcfg : u.cfg = c := step_cfg hu
  have hlength : u.busTrace.length = t.busTrace.length := by
    simpa [State.hideCodes] using congrArg (fun x : State => x.busTrace.length) hsame
  refine ⟨u.busTrace, ?_, fun htrace => ?_⟩
  · rw [hu, State.eq_of_hideCodes_eq hsame, hcfg]
  · rcases (oneRequestAtATime _ u hu).1 with hstay | ⟨q, hissue, -⟩
    · exact hstay
    · rw [hissue, htrace] at hlength
      simp at hlength

end Sys2Proof.Machine
end

section
/-! PROOFS. The host commands (spec/40_host_commands.md): CTRL writes held and taken, the accepts, and READ as one function of
the nine bytes. -/

namespace Sys2Proof.Machine

/-! ### CTRL writes -/

/-- While the block is busy a CTRL write is held (R100). -/
theorem hostTurn_ctrl_busy {s : State} {v : Byte} {rest : List HostOp} (hh : s.host = .wr 0x00 v :: rest)
    (hp : s.phase ≠ .idle) : hostTurn s = .next s := by
  rw [hostTurn, hh]
  exact (if_pos (by decide)).trans ((if_pos rfl).trans (if_neg hp))

/-- In `IDLE` a CTRL write runs its command, once it has left the host's program (R100). -/
theorem step_ctrl_idle {s : State} {v : Byte} {rest : List HostOp} {es : List Event} (hh : s.host = .wr 0x00 v :: rest)
    (he : s.events = .host :: es) (hp : s.phase = .idle) :
    step s = exec (decodeCtrl v) { s with events := es, host := rest, hostLog := s.hostLog ++ [.wr 0x00 v] } := by
  rw [step_host_wr he hh]
  exact (if_pos (by decide)).trans ((if_pos rfl).trans (if_pos hp))

/-! ### The accepts -/

theorem exec_start_idle {s : State} (hp : s.phase = .idle) : exec .start s = .next (s.accept .start) :=
  congrArg Host.Outcome.next (if_pos hp)

theorem exec_read_idle {s : State} (hp : s.phase = .idle) : exec .read s = .next (s.accept .read) :=
  congrArg Host.Outcome.next (if_pos hp)

theorem exec_illegal_idle {s : State} (hp : s.phase = .idle) :
    exec .illegal s = .next (State.finish .illegalCommand { s.clearOutputs with op := .none }) :=
  congrArg Host.Outcome.next (if_pos hp)

/-! ### Expected answers -/

/-- An answer runs the row the state awaits, with the schedule moved on (R131). -/
theorem step_answer {s : State} {r : Response} {i : Instr} {es : List Event} (he : s.events = .answer r :: es)
    (hi : s.awaiting r = some i) : step s = exec i { s with events := es } := by
  have hawait : State.awaiting r { s with events := es } = some i := hi
  rw [step_cons he, turn, answerTurn, hawait]

/-- The presence pulse (R122). -/
theorem step_presence {s : State} {es : List Event} (he : s.events = .answer (.presence true) :: es)
    (hp : s.phase = .rst) : step s = .next (State.enter .txSkip { s with events := es }) := by
  rw [step_answer he (i := .tReset (.presence true)) (by rw [State.awaiting, hp])]
  simp [exec, execTReset, hp]

/-- The acknowledge of skip ROM (R123). -/
theorem step_skipRom_ack {s : State} {es : List Event} (he : s.events = .answer .ack :: es)
    (hp : s.phase = .txSkip) : step s = .next (State.enter .txFunc { s with events := es }) := by
  rw [step_answer he (i := .skipRom .ack) (by rw [State.awaiting, hp])]
  simp [exec, execSkipRom, hp]

/-- The acknowledge of read scratchpad (R125). -/
theorem step_readScratchpad_ack {s : State} {es : List Event} (he : s.events = .answer .ack :: es)
    (hp : s.phase = .txFunc) (ho : s.op = .read) : step s = .next (State.enter .rx { s with events := es }) := by
  rw [step_answer he (i := .readScratchpad .ack) (by simp only [State.awaiting, hp, ho])]
  simp [exec, execReadScratchpad, hp, ho]

/-- A data byte (R141). -/
theorem step_receive {s : State} {b : Byte} {es : List Event} (he : s.events = .answer (.data b) :: es)
    (hp : s.phase = .rx) : step s = .next (State.receive b { s with events := es }) := by
  rw [step_answer he (i := .tRead (.data b)) (by rw [State.awaiting, hp])]
  simp [exec, execTRead, hp]

/-! ### Nine bytes received -/

/-- The ninth byte leads to `DECODE` and asks for none (R141). -/
theorem State.receive_of_eq_eight {s : State} (b : Byte) (hn : s.rxcnt = 8) :
    s.receive b = { s with sp := s.sp.set 8 b, crc := crc8Byte s.crc b, rxcnt := 9, phase := .decode } := by
  have hcount : s.rxcnt + 1 = 9 := by rw [hn]; rfl
  rw [State.receive, if_pos hcount, hcount, hn]
  simp [State.enter, State.request, sp_write]

/-- The bytes up to the ninth go behind those received before, into the CRC, and each but the ninth asks for the next. -/
theorem run_receives (b : Byte) (bs : List Byte) {s : State} {es : List Event} (hp : s.phase = .rx)
    (hn : s.rxcnt.toNat + bs.length = 8) (he : s.events = ((b :: bs).map .data).map .answer ++ es) :
    ∃ sp : Vector Byte 9, sp.toList = s.sp.toList.take s.rxcnt.toNat ++ b :: bs ∧
      run (bs.length + 1) s = .next
        { s with
          phase := .decode, sp := sp, rxcnt := 9, crc := (b :: bs).foldl crc8Byte s.crc, events := es
          busTrace := s.busTrace ++ List.replicate bs.length .tRead } := by
  induction bs generalizing s b with
  | nil =>
    have height : s.rxcnt = 8 := by simp only [List.length_nil] at hn; bv_omega
    have hstep := (step_receive he hp).trans (congrArg Host.Outcome.next (State.receive_of_eq_eight b height))
    have hall : (s.sp.set 8 b).toList = s.sp.toList.take 8 ++ [b] := by
      rw [← take_succ_toList_set s.sp 8 (by decide) b, List.take_of_length_le (by simp)]
    refine ⟨s.sp.set 8 b, by rw [hall, height]; rfl, ?_⟩
    rw [List.length_nil, run_succ_of_next hstep]
    simp
  | cons c bs ih =>
    rw [List.length_cons] at hn
    have hlt : s.rxcnt.toNat < 9 := by omega
    have hcount : (s.rxcnt + 1).toNat = s.rxcnt.toNat + 1 := by bv_omega
    have hleft : (s.rxcnt + 1).toNat + bs.length = 8 := by omega
    have hmore : s.rxcnt + 1#4 ≠ 9#4 := by bv_omega
    obtain ⟨sp, hsp, hrun⟩ := ih c (s := State.receive b { s with events := ((c :: bs).map .data).map .answer ++ es })
      (if_neg hmore) hleft rfl
    refine ⟨sp, ?_, ?_⟩
    · rw [hsp, State.receive_sp, State.receive_rxcnt, hcount, sp_write _ _ hlt,
        take_succ_toList_set s.sp _ hlt, List.append_assoc, List.singleton_append]
    · rw [List.length_cons, run_succ_of_next (step_receive he hp)]
      refine hrun.trans ?_
      simp [hmore, List.replicate_succ]

/-! ### The check step -/

/-- The check of a nonzero residue (R146). -/
theorem step_engine_mismatch {s : State} {es : List Event} (he : s.events = .engine :: es) (hp : s.phase = .decode)
    (hc : s.crc ≠ 0x00) : step s = .next (State.finish .checksumMismatch { s with events := es }) :=
  (step_cons he).trans (congrArg Host.Outcome.next ((if_pos hp).trans (if_neg hc)))

/-- The check of residue 0x00 decodes the temperature (R146). -/
theorem step_engine_decode {s : State} {es : List Event} (he : s.events = .engine :: es) (hp : s.phase = .decode)
    (hc : s.crc = 0x00) : step s = .next (State.decodeAndFormat dispCap { s with events := es }) :=
  (step_cons he).trans (congrArg Host.Outcome.next ((if_pos hp).trans (if_pos hc)))

/-! ### READ up to its check -/

/-- The block in `RX`, once a READ has asked for its first byte (R104, R125). -/
def State.readStarted (s : State) (v : Byte) (rest : List HostOp) (es : List Event) : State :=
  { s.clearOutputs with
    phase := .rx, op := .read
    busTrace := s.busTrace ++ [.tReset, .tWrite s.cfg.cmdSkipRom, .tWrite s.cfg.cmdReadScratchpad, .tRead]
    host := rest, hostLog := s.hostLog ++ [.wr 0x00 v], events := es }

/-- The block in `DECODE`, once a READ has received these nine bytes (R104, R128, R141). -/
def State.readReceived (s : State) (v : Byte) (rest : List HostOp) (bs : Vector Byte 9) (es : List Event) : State :=
  { s.clearOutputs with
    phase := .decode, op := .read, sp := bs, rxcnt := 9, crc := crc8 bs.toList
    busTrace := s.busTrace ++ commandRequests s.cfg .read
    host := rest, hostLog := s.hostLog ++ [.wr 0x00 v], events := es }

/-- READ up to its first byte read: accept, presence pulse and two acknowledges (R104). -/
theorem run_read_to_rx {s : State} {v : Byte} {rest : List HostOp} {es : List Event} (hp : s.phase = .idle)
    (hh : s.host = .wr 0x00 v :: rest) (hv : decodeCtrl v = .read)
    (he : s.events = .host :: .answer (.presence true) :: .answer .ack :: .answer .ack :: es) :
    run 4 s = .next (s.readStarted v rest es) := by
  have haccept := step_ctrl_idle hh he hp
  rw [hv, exec_read_idle (by exact hp)] at haccept
  rw [run_succ_of_next haccept, run_succ_of_next (step_presence rfl rfl), run_succ_of_next (step_skipRom_ack rfl rfl),
    run_succ_of_next (step_readScratchpad_ack rfl rfl rfl)]
  simp [State.readStarted, State.accept, State.enter, State.request, func, State.clearOutputs]

/-- READ up to its check: the nine bytes fill the cleared buffer. -/
theorem run_read_to_decode {s : State} {v : Byte} {rest : List HostOp} {bs : Vector Byte 9} {es : List Event}
    (hp : s.phase = .idle) (hh : s.host = .wr 0x00 v :: rest) (hv : decodeCtrl v = .read)
    (he : s.events = .host :: ((readScript bs.toList).map .answer ++ es)) :
    run 13 s = .next (s.readReceived v rest bs es) := by
  obtain ⟨b, tail, hbs⟩ := List.exists_cons_of_length_eq_add_one (Vector.length_toList (xs := bs))
  have htail : tail.length = 8 := by simpa using (congrArg List.length hbs).symm
  have hfirst := run_read_to_rx hp hh hv (es := (bs.toList.map .data).map .answer ++ es) (by simp [he, readScript])
  obtain ⟨sp, hsp, hrest⟩ := run_receives b tail (s := s.readStarted v rest ((bs.toList.map .data).map .answer ++ es))
    rfl (by simp [State.readStarted, htail]) (by rw [← hbs]; rfl)
  have hbytes : sp = bs := Vector.toList_inj.mp (hsp.trans hbs.symm)
  rw [htail] at hrest
  refine (run_add_of_next hfirst (n := 9)).trans (hrest.trans ?_)
  simp [State.readReceived, State.readStarted, hbytes, hbs, commandRequests, List.replicate, crc8]

theorem State.readReceived_inv (s : State) (v : Byte) (rest : List HostOp) (bs : Vector Byte 9) (es : List Event) :
    (s.readReceived v rest bs es).Inv :=
  State.Running.inv ⟨nofun, rfl, rfl, rfl, rfl, rfl, rfl⟩ nofun (fun _ => ⟨rfl, rfl⟩) (by simp [State.readReceived])

/-! ### The obligations -/

/-- Settles O25: the nine bytes lead to `DECODE` with their CRC, and the check step ends the READ by it; the text is the one
the display invariant gives for the decode step. -/
theorem readAsOneFunction : Obligations.ReadAsOneFunction := by
  intro s v rest bs es hp hh hv he
  have hreceived := run_read_to_decode hp hh hv he
  by_cases hc : crc8 bs.toList = 0x00
  · have hlast := run_succ_of_next (n := 0)
      (step_engine_decode (s := s.readReceived v rest bs (.engine :: es)) rfl rfl hc)
    obtain ⟨hlength, htext⟩ := (s.readReceived_inv v rest bs es).decode_displayInv rfl
    refine ⟨_, (run_add_of_next hreceived).trans hlast, ?_⟩
    rw [State.decodeAndFormat_dispCap] at hlength htext ⊢
    exact ⟨rfl, rfl, rfl, rfl, rfl, rfl, rfl, rfl, rfl, rfl, rfl,
      fun _ => ⟨rfl, rfl, rfl, hlength rfl, htext rfl⟩, fun hne => absurd hc hne⟩
  · have hlast := run_succ_of_next (n := 0)
      (step_engine_mismatch (s := s.readReceived v rest bs (.engine :: es)) rfl rfl hc)
    exact ⟨_, (run_add_of_next hreceived).trans hlast, rfl, rfl, rfl, rfl, rfl, rfl, rfl, rfl, rfl, rfl, rfl,
      fun h => absurd h hc, fun _ => ⟨rfl, rfl, rfl, rfl, rfl⟩⟩

/-- Settles O1: NONE's dispatch is the identity, and the held write is R100's. -/
theorem noneChangesNothing : Obligations.NoneChangesNothing := by
  intro v s hcmd
  obtain ⟨hdecode, -, -⟩ := cmdSelectsTheCommand
  obtain ⟨hnone, -⟩ := hdecode v
  exact ⟨hnone hcmd, rfl, fun _ hp hh => hostTurn_ctrl_busy hh hp⟩

/-- Settles O2: the two accepts differ in the `OP` they latch only. -/
theorem startAndReadAreAccepted : Obligations.StartAndReadAreAccepted := by
  intro s hp p hmem
  obtain rfl | rfl : p = (.start, .start) ∨ p = (.read, .read) := by simpa using hmem
  · exact exec_start_idle hp
  · exact exec_read_idle hp

/-- Settles O3: STATUS follows from the control invariant, which the reserved command's end meets. -/
theorem reservedCommandFinishesIllegal : Obligations.ReservedCommandFinishesIllegal := by
  intro v s hcmd hp
  obtain ⟨hdecode, -, -⟩ := cmdSelectsTheCommand
  obtain ⟨-, -, -, hillegal⟩ := hdecode v
  refine ⟨hillegal hcmd, _, exec_illegal_idle hp, by rw [hp]; rfl, rfl, rfl, ?_, ?_⟩
  · exact s.illegal_inv.statusWord_of_ne_ok (r := .illegalCommand) rfl rfl nofun
  · exact (rfl : fsmBits .none .idle = 0x00)

/-- Settles O4: each of the three next states is built on `clearOutputs`. -/
theorem acceptClearsOutputs : Obligations.AcceptClearsOutputs := by
  intro s hp
  refine ⟨fun i hmem => ?_, rfl⟩
  obtain rfl | rfl | rfl : i = .start ∨ i = .read ∨ i = .illegal := by simpa using hmem
  · exact ⟨_, exec_start_idle hp, by simp⟩
  · exact ⟨_, exec_read_idle hp, by simp⟩
  · exact ⟨_, exec_illegal_idle hp, by simp⟩

/-- Settles O5: `finish` is its own record update, and `IDLE` has no request. -/
theorem finishEndsTheCommand : Obligations.FinishEndsTheCommand :=
  fun _ _ => ⟨rfl, rfl, rfl⟩

/-- Settles O6: the host's turn holds the write or dispatches it, and the decoder selects by `v[1:0]`. -/
theorem ctrlWriteIsHeldWhileBusy : Obligations.CtrlWriteIsHeldWhileBusy := by
  intro v rest es s hh he
  refine ⟨fun hp => ?_, fun hp p hmem hcmd => ?_⟩
  · exact (step_cons he).trans (hostTurn_ctrl_busy hh hp)
  · rw [step_ctrl_idle hh he hp]
    obtain ⟨hdecode, -, -⟩ := cmdSelectsTheCommand
    obtain ⟨hnone, hstart, hread, hillegal⟩ := hdecode v
    obtain rfl | rfl | rfl | rfl :
        p = (0b00, .cmdNone) ∨ p = (0b01, .start) ∨ p = (0b10, .read) ∨ p = (0b11, .illegal) := by
      simpa using hmem
    · rw [hnone hcmd]
    · rw [hstart hcmd]
    · rw [hread hcmd]
    · rw [hillegal hcmd]

end Sys2Proof.Machine
end

section
/-! PROOFS. The bus sequencer (spec/41_bus_sequencer.md R120 to R127, R131): the outstanding request, the five bus rows and the
response table. -/

namespace Sys2Proof.Machine

/-! ### The outstanding request -/

/-- Settles O15: the request is read off `STATE`, and in `TX_FUNC` off `OP`. -/
theorem outstandingRequest : Obligations.OutstandingRequest := by
  intro s
  refine ⟨fun hp => ?_, fun hp => ?_, fun hp => ?_, fun hp ho => ?_, fun hp ho => ?_, fun hp => ?_, fun hp => ?_⟩
  case refine_4 => simp [State.request, hp, func, ho]
  case refine_5 => simp [State.request, hp, func, ho]
  all_goals simp [State.request, hp]

/-- Which state has which request outstanding (R120). -/
theorem State.request_cases {s : State} {q : Request} (h : s.request = some q) :
    (s.phase = .rst ∧ q = .tReset) ∨ (s.phase = .txSkip ∧ q = .tWrite s.cfg.cmdSkipRom) ∨
    (s.phase = .txFunc ∧ s.op = .start ∧ q = .tWrite s.cfg.cmdConvertT) ∨
    (s.phase = .txFunc ∧ s.op = .read ∧ q = .tWrite s.cfg.cmdReadScratchpad) ∨ (s.phase = .rx ∧ q = .tRead) := by
  unfold State.request at h
  cases hp : s.phase with
  | txFunc => cases ho : s.op <;> simp_all [func]
  | _ => simp_all

/-- Entering `TX_FUNC` issues the function byte of `OP` (R78, R120). -/
theorem State.enter_txFunc {s : State} {b : Byte} (hf : func s.cfg s.op = some b) :
    s.enter .txFunc = { s with phase := .txFunc, busTrace := s.busTrace ++ [.tWrite b] } := by
  simp [State.enter, State.request, hf]

/-- A byte read expects data only (R131). -/
theorem expects_tRead_eq_true {r : Response} (h : expects .tRead r = true) : ∃ b, r = .data b := by
  cases r with
  | data b => exact ⟨b, rfl⟩
  | _ => cases h

/-! ### Each row, where its request is outstanding -/

/-- A row with its request outstanding goes on with the expected response and fails with any other (R127). -/
theorem next_respond_outstanding {o e : Prop} [Decidable o] [Decidable e] (ho : o) (k : State → State) (s : State) :
    (.next (s.respond o e k) : Host.Outcome State Fault Refusal) =
      if e then .next (k s) else .next (s.finish .transportFault) := by
  by_cases he : e <;> simp [ho, he]

theorem exec_tReset_rst {s : State} (hp : s.phase = .rst) (r : Response) :
    exec (.tReset r) s =
      if r = .presence true then .next (s.enter .txSkip) else .next (s.finish .transportFault) :=
  next_respond_outstanding hp _ s

theorem exec_skipRom_txSkip {s : State} (hp : s.phase = .txSkip) (r : Response) :
    exec (.skipRom r) s = if r = .ack then .next (s.enter .txFunc) else .next (s.finish .transportFault) :=
  next_respond_outstanding hp _ s

theorem exec_convertT_txFunc {s : State} (hp : s.phase = .txFunc) (ho : s.op = .start) (r : Response) :
    exec (.convertT r) s = if r = .ack then .next (s.finish .ok) else .next (s.finish .transportFault) :=
  next_respond_outstanding ⟨hp, ho⟩ _ s

theorem exec_readScratchpad_txFunc {s : State} (hp : s.phase = .txFunc) (ho : s.op = .read) (r : Response) :
    exec (.readScratchpad r) s = if r = .ack then .next (s.enter .rx) else .next (s.finish .transportFault) :=
  next_respond_outstanding ⟨hp, ho⟩ _ s

/-- A response without data fails a byte read (R127, R141). -/
theorem exec_tRead_unexpected {s : State} (hp : s.phase = .rx) {r : Response} (hr : expects .tRead r = false) :
    exec (.tRead r) s = .next (s.finish .transportFault) := by
  cases r with
  | data b => cases hr
  | _ => simp [exec, execTRead, hp]

/-! ### Each row, where its request is not outstanding -/

theorem State.respond_not_outstanding {o : Prop} [Decidable o] (ho : ¬o) (e : Bool) (k : State → State) (s : State) :
    s.respond o e k = s := by
  rw [decide_eq_false ho, State.respond_off]

theorem exec_tRead_not_rx {s : State} (hp : s.phase ≠ .rx) (r : Response) : exec (.tRead r) s = .next s := by
  cases r <;> exact congrArg Host.Outcome.next (State.respond_not_outstanding hp _ _ s)

/-! ### What the rows without data may write -/

/-- Between the two states only `STATE`, `DONE`, `RESULT` and the bus trace differ. -/
def State.SameButControl (s t : State) : Prop :=
  ∃ p d c trace, t = { s with phase := p, done := d, result := c, busTrace := trace }

/-- `STATE`, `DONE` and `RESULT` are read in STATUS and FSM only (R51). -/
theorem State.SameButControl.memRead {s t : State} (h : s.SameButControl t) {a : Nat} (hstatus : a ≠ 0x01)
    (hfsm : a ≠ 0x07) : t.memRead a = s.memRead a := by
  obtain ⟨p, d, c, trace, rfl⟩ := h
  simp only [State.memRead, if_neg hstatus, if_neg hfsm]

theorem State.SameButControl.refl (s : State) : s.SameButControl s := ⟨_, _, _, _, rfl⟩

theorem State.SameButControl.enter (s : State) (p : Phase) : s.SameButControl (s.enter p) := ⟨_, _, _, _, rfl⟩

theorem State.SameButControl.finish (s : State) (code : Result) : s.SameButControl (s.finish code) :=
  ⟨_, _, _, _, rfl⟩

theorem State.SameButControl.respond {s : State} {k : State → State} (hk : s.SameButControl (k s)) (o e : Bool) :
    s.SameButControl (s.respond o e k) := by
  rcases s.respond_cases o e k with ⟨-, h⟩ | ⟨-, -, h⟩ | ⟨-, -, h⟩ <;> rw [h]
  · exact .refl s
  · exact hk
  · exact .finish s _

/-- The four rows without data answer a next state in every state, and write no register that holds data. -/
theorem exec_sameButControl (s : State) (r : Response) {i : Instr}
    (hi : i ∈ [Instr.tReset r, Instr.skipRom r, Instr.convertT r, Instr.readScratchpad r]) :
    ∃ t, exec i s = .next t ∧ s.SameButControl t := by
  obtain rfl | rfl | rfl | rfl : i = .tReset r ∨ i = .skipRom r ∨ i = .convertT r ∨ i = .readScratchpad r := by
    simpa using hi
  · exact ⟨_, rfl, .respond (.enter s .txSkip) _ _⟩
  · exact ⟨_, rfl, .respond (.enter s .txFunc) _ _⟩
  · exact ⟨_, rfl, .respond (.finish s .ok) _ _⟩
  · exact ⟨_, rfl, .respond (.enter s .rx) _ _⟩

/-! ### Each answer, as a step -/

section Answers

variable {s : State} {r : Response} {es : List Event} (he : s.events = .answer r :: es)

include he

theorem step_answer_rst (hp : s.phase = .rst) :
    step s =
      if r = .presence true then .next (State.enter .txSkip { s with events := es })
      else .next (State.finish .transportFault { s with events := es }) :=
  (step_answer he (by simp only [State.awaiting, hp])).trans (exec_tReset_rst (s := { s with events := es }) hp r)

theorem step_answer_txSkip (hp : s.phase = .txSkip) :
    step s =
      if r = .ack then .next (State.enter .txFunc { s with events := es })
      else .next (State.finish .transportFault { s with events := es }) :=
  (step_answer he (by simp only [State.awaiting, hp])).trans (exec_skipRom_txSkip (s := { s with events := es }) hp r)

theorem step_answer_txFunc_start (hp : s.phase = .txFunc) (ho : s.op = .start) :
    step s =
      if r = .ack then .next (State.finish .ok { s with events := es })
      else .next (State.finish .transportFault { s with events := es }) :=
  (step_answer he (by simp only [State.awaiting, hp, ho])).trans
    (exec_convertT_txFunc (s := { s with events := es }) hp ho r)

theorem step_answer_txFunc_read (hp : s.phase = .txFunc) (ho : s.op = .read) :
    step s =
      if r = .ack then .next (State.enter .rx { s with events := es })
      else .next (State.finish .transportFault { s with events := es }) :=
  (step_answer he (by simp only [State.awaiting, hp, ho])).trans
    (exec_readScratchpad_txFunc (s := { s with events := es }) hp ho r)

theorem step_answer_rx (hp : s.phase = .rx) : step s = exec (.tRead r) { s with events := es } :=
  step_answer he (by simp only [State.awaiting, hp])

/-- In `IDLE` and `DECODE` a response is dropped (R131). -/
theorem step_answer_dropped (hp : s.phase = .idle ∨ s.phase = .decode) : step s = .next { s with events := es } := by
  rw [step_cons he, turn, answerTurn]
  rcases hp with hp | hp <;> simp [State.awaiting, hp]

/-- A response the outstanding request does not expect ends the command (R127). -/
theorem step_answer_unexpected {q : Request} (hq : s.request = some q) (hr : expects q r = false) :
    step s = .next (State.finish .transportFault { s with events := es }) := by
  rcases State.request_cases hq with ⟨hp, rfl⟩ | ⟨hp, rfl⟩ | ⟨hp, ho, rfl⟩ | ⟨hp, ho, rfl⟩ | ⟨hp, rfl⟩
  · exact (step_answer_rst he hp).trans (if_neg (of_decide_eq_false hr))
  · exact (step_answer_txSkip he hp).trans (if_neg (of_decide_eq_false hr))
  · exact (step_answer_txFunc_start he hp ho).trans (if_neg (of_decide_eq_false hr))
  · exact (step_answer_txFunc_read he hp ho).trans (if_neg (of_decide_eq_false hr))
  · exact (step_answer_rx he hp).trans (exec_tRead_unexpected (s := { s with events := es }) hp hr)

end Answers

/-! ### The obligations -/

/-- Settles O22: each cell is the row its state awaits, and the two function bytes are those of `OP`. -/
theorem responseTable : Obligations.ResponseTable := by
  rintro s r es he _ rfl
  refine ⟨fun hp => ?_, fun hp ho => ?_, fun hp ho => ?_, fun hp ho => ?_, fun hp ho => ?_, fun hp b hr => ?_,
    fun hp hr => ?_, step_answer_dropped he⟩
  · exact step_answer_rst he hp
  · rw [step_answer_txSkip he hp, State.enter_txFunc (s := { s with events := es }) (congrArg (func s.cfg) ho)]
    rfl
  · rw [step_answer_txSkip he hp, State.enter_txFunc (s := { s with events := es }) (congrArg (func s.cfg) ho)]
    rfl
  · exact step_answer_txFunc_start he hp ho
  · exact step_answer_txFunc_read he hp ho
  · rw [step_answer_rx he hp, hr]
  · have hunexpected : expects .tRead r = false :=
      Bool.eq_false_iff.mpr fun h => (expects_tRead_eq_true h).elim hr
    have hrequest : s.request = some .tRead := by simp only [State.request, hp]
    exact step_answer_unexpected he hrequest hunexpected

/-- Settles O23: each of the five rows with a request outstanding ends by `finish`, which issues nothing. -/
theorem transportFailureEndsTheCommand : Obligations.TransportFailureEndsTheCommand :=
  fun _ _ _ _ hq he hr => step_answer_unexpected he hq hr

/-- Settles O57: the registers these rows write are shown in STATUS and FSM only. -/
theorem busStepsFrame : Obligations.BusStepsFrame := by
  intro s r i hi
  obtain ⟨t, ht, hsame⟩ := exec_sameButControl s r hi
  refine ⟨t, ht, fun a => hsame.memRead, ?_⟩
  obtain ⟨p, d, c, trace, rfl⟩ := hsame
  exact ⟨rfl, rfl, rfl, rfl, rfl, rfl⟩

/-- Settles O16: after an accept `TRANSPORT_FAULT` is all that STATUS shows beside `DONE`. -/
theorem handshakeStep : Obligations.HandshakeStep := by
  intro s r hp
  obtain ⟨-, hrequest, -⟩ := outstandingRequest s
  have hexec := exec_tReset_rst hp r
  refine ⟨hrequest hp, fun hr => hexec.trans (if_pos hr), fun hr => ⟨hexec.trans (if_neg hr), fun h => ?_⟩⟩
  have hfail : (s.finish .transportFault).Inv := (h.running (by simp [hp])).finish_inv (.inr (.inl rfl))
  exact hfail.statusWord_of_ne_ok (r := .transportFault) rfl rfl nofun

/-- Settles O17: the acknowledge enters `TX_FUNC`, which issues the function byte of `OP`. -/
theorem skipRomStep : Obligations.SkipRomStep := by
  intro s r hp
  obtain ⟨-, -, hrequest, -⟩ := outstandingRequest s
  have hexec := exec_skipRom_txSkip hp r
  refine ⟨hrequest hp, fun hr ho => ?_, fun hr ho => ?_, fun hr => hexec.trans (if_neg hr)⟩
  · rw [hexec, if_pos hr, State.enter_txFunc (congrArg (func s.cfg) ho)]
  · rw [hexec, if_pos hr, State.enter_txFunc (congrArg (func s.cfg) ho)]

/-- Settles O18: both responses end the command by `finish`. -/
theorem convertTStep : Obligations.ConvertTStep := by
  intro s r hp ho
  obtain ⟨-, -, -, hrequest, -⟩ := outstandingRequest s
  refine ⟨hrequest hp ho, (exec_convertT_txFunc hp ho r).trans ?_⟩
  by_cases hr : r = .ack
  · rw [if_pos hr, if_pos hr]; rfl
  · rw [if_neg hr, if_neg hr]; rfl

/-- Settles O19: the acknowledge enters `RX`, and the control invariant keeps `RXCNT` and `CRC` at 0 until then. -/
theorem readScratchpadStep : Obligations.ReadScratchpadStep := by
  intro s r hp ho
  obtain ⟨-, -, -, -, hrequest, -⟩ := outstandingRequest s
  have hexec := exec_readScratchpad_txFunc hp ho r
  exact ⟨hrequest hp ho, fun hr => hexec.trans (if_pos hr), fun hr => hexec.trans (if_neg hr),
    fun h => h.early (.inr (.inr hp))⟩

/-- Settles O21: a row whose request is not outstanding consumes nothing, and a host command asks for `IDLE`. -/
theorem onlyTheOutstandingRequestIsAnswered : Obligations.OnlyTheOutstandingRequestIsAnswered := by
  intro s r
  refine ⟨fun hp => ?_, fun hp => ?_, fun hno => ?_, fun hno => ?_, fun hp => exec_tRead_not_rx hp r,
    fun hp i hmem => ?_⟩
  · exact congrArg Host.Outcome.next (State.respond_not_outstanding hp _ _ s)
  · exact congrArg Host.Outcome.next (State.respond_not_outstanding hp _ _ s)
  · exact congrArg Host.Outcome.next (State.respond_not_outstanding (not_and_or.mpr hno) _ _ s)
  · exact congrArg Host.Outcome.next (State.respond_not_outstanding (not_and_or.mpr hno) _ _ s)
  · obtain rfl | rfl | rfl | rfl : i = .cmdNone ∨ i = .start ∨ i = .read ∨ i = .illegal := by simpa using hmem
    · rfl
    all_goals exact congrArg Host.Outcome.next (if_neg hp)

end Sys2Proof.Machine
end

section
/-! PROOFS. The request sequence of a command (spec/41_bus_sequencer.md R128): the requests issued and those still to come are
together the command's row, for as long as the expected responses come. -/

namespace Sys2Proof.Machine

/-! ### The requests still to be answered -/

/-- The requests a command still waits to have answered, the outstanding one first (R128). -/
def State.pending (s : State) : List Request :=
  match s.phase with
  | .idle => []
  | .rst => commandRequests s.cfg s.op
  | .txSkip => (commandRequests s.cfg s.op).tail
  | .txFunc => (commandRequests s.cfg s.op).tail.tail
  | .rx => List.replicate (spLen - s.rxcnt.toNat) .tRead
  | .decode => []

theorem State.pending_rx {s : State} (hp : s.phase = .rx) :
    s.pending = List.replicate (spLen - s.rxcnt.toNat) .tRead := by
  simp only [State.pending, hp]

theorem State.pending_decode {s : State} (hp : s.phase = .decode) : s.pending = [] := by
  simp only [State.pending, hp]

/-- The first pending request is the outstanding one. -/
theorem State.Inv.pending_head {s : State} (h : s.Inv) : s.pending.head? = s.request := by
  unfold State.pending State.request
  cases hp : s.phase with
  | idle => rfl
  | decode => rfl
  | rx =>
    have hleft : spLen - s.rxcnt.toNat = (8 - s.rxcnt.toNat) + 1 := Nat.succ_sub (h.rx_rxcnt hp)
    simp only [hleft, List.replicate_succ, List.head?_cons]
  | _ =>
    have hop := h.busy_op (by simp [hp])
    cases ho : s.op with
    | none => exact absurd ho hop
    | _ => rfl

theorem State.Inv.request_of_pending {s : State} (h : s.Inv) {q : Request} {qs : List Request}
    (hpending : s.pending = q :: qs) : s.request = some q := by
  rw [← h.pending_head, hpending, List.head?_cons]

/-- Without a request the block is in `IDLE` or `DECODE`: a running command has a function byte (R23, R78). -/
theorem State.Inv.phase_of_request_none {s : State} (h : s.Inv) (hq : s.request = none) :
    s.phase = .idle ∨ s.phase = .decode := by
  have hno : ¬s.request.isSome := by simp [hq]
  rw [State.request_isSome_iff] at hno
  cases hp : s.phase with
  | idle => exact .inl rfl
  | decode => exact .inr rfl
  | txFunc => exact absurd (.inr (.inr (.inl ⟨hp, h.busy_op (by simp [hp])⟩))) hno
  | _ => simp [hp] at hno

/-! ### Expected answers -/

/-- What an expected response does to the block: one constructor per such cell of R131's table. -/
inductive State.Proceeds (s : State) : State → Prop where
  | presence (hp : s.phase = .rst) : State.Proceeds s (s.enter .txSkip)
  | skipAck (hp : s.phase = .txSkip) : State.Proceeds s (s.enter .txFunc)
  | convertAck (hp : s.phase = .txFunc) (ho : s.op = .start) : State.Proceeds s (s.finish .ok)
  | readAck (hp : s.phase = .txFunc) (ho : s.op = .read) : State.Proceeds s (s.enter .rx)
  | data (b : Byte) (hp : s.phase = .rx) : State.Proceeds s (s.receive b)

/-- An answer the outstanding request expects takes the block on (R131). -/
theorem step_answer_expected {s : State} {r : Response} {es : List Event} (he : s.events = .answer r :: es)
    {q : Request} (hq : s.request = some q) (hr : expects q r = true) :
    ∃ t, step s = .next t ∧ State.Proceeds { s with events := es } t := by
  rcases State.request_cases hq with ⟨hp, rfl⟩ | ⟨hp, rfl⟩ | ⟨hp, ho, rfl⟩ | ⟨hp, ho, rfl⟩ | ⟨hp, rfl⟩
  · exact ⟨_, (step_answer_rst he hp).trans (if_pos (of_decide_eq_true hr)), .presence hp⟩
  · exact ⟨_, (step_answer_txSkip he hp).trans (if_pos (of_decide_eq_true hr)), .skipAck hp⟩
  · exact ⟨_, (step_answer_txFunc_start he hp ho).trans (if_pos (of_decide_eq_true hr)), .convertAck hp ho⟩
  · exact ⟨_, (step_answer_txFunc_read he hp ho).trans (if_pos (of_decide_eq_true hr)), .readAck hp ho⟩
  · obtain ⟨b, rfl⟩ := expects_tRead_eq_true hr
    exact ⟨_, step_receive he hp, .data b hp⟩

theorem State.Proceeds.op_eq {s t : State} (h : s.Proceeds t) : t.op = s.op := by cases h <;> rfl

theorem State.Proceeds.events_eq {s t : State} (h : s.Proceeds t) : t.events = s.events := by cases h <;> rfl

/-- An expected response has the next request issued, if there is one. -/
theorem State.Proceeds.busTrace_eq {s t : State} (h : s.Proceeds t) :
    t.busTrace = s.busTrace ++ t.request.toList := by
  cases h with
  | convertAck _ _ => exact (List.append_nil _).symm
  | _ => rfl

/-- The command goes on, or is a START that has ended with `OK`. -/
theorem State.Proceeds.going {s t : State} (h : s.Proceeds t) : t.phase ≠ .idle ∨ t.op = .start ∧ t.result = .ok := by
  cases h with
  | convertAck _ ho => exact .inr ⟨ho, rfl⟩
  | data b _ => left; rw [State.receive_phase]; split <;> nofun
  | _ => exact .inl nofun

/-- An expected response is one request answered. -/
theorem State.Proceeds.pending_eq {s t : State} (h : s.Proceeds t) (hi : s.Inv) : t.pending = s.pending.tail := by
  cases h with
  | presence hp => simp [State.pending, hp]
  | skipAck hp => simp [State.pending, hp]
  | convertAck hp ho => simp [State.pending, hp, ho, commandRequests]
  | readAck hp ho =>
    have hnone : s.rxcnt = 0 := (hi.early (.inr (.inr hp))).1
    simp [State.pending, hp, ho, hnone, commandRequests]
  | data b hp =>
    have hcount := hi.rx_rxcnt hp
    have hnext : (s.rxcnt + 1).toNat = s.rxcnt.toNat + 1 := by bv_omega
    rw [State.pending_rx hp, List.tail_replicate]
    by_cases hlast : s.rxcnt + 1 = 9
    · have height : s.rxcnt.toNat = 8 := by bv_omega
      rw [State.pending_decode (if_pos hlast), height]
      rfl
    · rw [State.pending_rx (if_neg hlast), State.receive_rxcnt, hnext]
      rfl

/-! ### A command on its course -/

/-- A command of which every response so far was the expected one: its row is what it has issued and what it will. -/
structure State.OnCourse (o : Op) (row : List Request) (s : State) : Prop where
  inv : s.Inv
  op_eq : s.op = o
  going : s.phase ≠ .idle ∨ s.op = .start ∧ s.result = .ok
  trace : s.busTrace ++ s.pending.tail = row

theorem commandRequests_eq_cons (c : Config) {o : Op} (ho : o ≠ .none) :
    commandRequests c o = .tReset :: (commandRequests c o).tail := by
  cases o with
  | none => exact absurd rfl ho
  | _ => rfl

/-- An accept issues the first request of the row (R103, R104). -/
theorem State.accept_onCourse {o : Op} (ho : o ≠ .none) (s : State) :
    (s.accept o).OnCourse o (s.busTrace ++ commandRequests s.cfg o) where
  inv := s.accept_inv ho
  op_eq := rfl
  going := .inl nofun
  trace := by rw [commandRequests_eq_cons _ ho, State.accept_busTrace, List.append_assoc]; rfl

/-- An expected answer keeps the command on its course. -/
theorem State.OnCourse.step_answer {o : Op} {row : List Request} {s : State} (h : s.OnCourse o row) {q : Request}
    {qs : List Request} {r : Response} {es : List Event} (hpending : s.pending = q :: qs)
    (he : s.events = .answer r :: es) (hr : expects q r = true) :
    ∃ t, step s = .next t ∧ t.OnCourse o row ∧ t.pending = qs ∧ t.events = es := by
  have hq := h.inv.request_of_pending hpending
  obtain ⟨t, hst, hproceeds⟩ := step_answer_expected he hq hr
  have hinv : t.Inv := step_keeps_inv h.inv hst
  have hleft : t.pending = qs :=
    (hproceeds.pending_eq (h.inv.outside s.cfg s.host s.hostLog s.busTrace es)).trans (congrArg List.tail hpending)
  refine ⟨t, hst, ⟨hinv, hproceeds.op_eq.trans h.op_eq, hproceeds.going, ?_⟩, hleft, hproceeds.events_eq⟩
  calc t.busTrace ++ t.pending.tail
      = s.busTrace ++ (qs.head?.toList ++ qs.tail) := by
        rw [hproceeds.busTrace_eq, ← hinv.pending_head, hleft, List.append_assoc]
    _ = s.busTrace ++ s.pending.tail := by rw [hpending]; cases qs <;> rfl
    _ = row := h.trace

/-- `k` expected answers take the command `k` requests further. -/
theorem State.OnCourse.run_answers (k : Nat) {o : Op} {row : List Request} {s : State} (h : s.OnCourse o row)
    {rs : List Response} {es : List Event} (he : s.events = rs.map .answer ++ es) (hrs : k ≤ rs.length)
    (hqs : k ≤ s.pending.length) (hexpected : ∀ p ∈ (s.pending.zip rs).take k, expects p.1 p.2 = true) :
    ∃ t, run k s = .next t ∧ t.OnCourse o row ∧ t.pending = s.pending.drop k ∧
      t.events = (rs.drop k).map .answer ++ es := by
  induction k generalizing s rs with
  | zero => exact ⟨s, rfl, h, rfl, he⟩
  | succ k ih =>
    obtain ⟨r, rs, rfl⟩ := List.exists_cons_of_length_pos (Nat.zero_lt_of_lt hrs)
    obtain ⟨q, qs, hpending⟩ := List.exists_cons_of_length_pos (Nat.zero_lt_of_lt hqs)
    simp only [hpending, List.zip_cons_cons, List.take_succ_cons, List.forall_mem_cons, List.length_cons,
      Nat.add_le_add_iff_right] at hexpected hqs hrs
    obtain ⟨hfirst, hlater⟩ := hexpected
    obtain ⟨t, hst, ht, rfl, het⟩ := h.step_answer hpending he hfirst
    rw [hpending, List.drop_succ_cons, List.drop_succ_cons, run_succ_of_next hst]
    exact ih ht het hrs hqs hlater

/-- With nothing left to be answered the row is complete: a START has ended with `OK`, a READ is in `DECODE`. -/
theorem State.OnCourse.complete {o : Op} {row : List Request} {s : State} (h : s.OnCourse o row)
    (hnone : s.pending = []) :
    s.busTrace = row ∧ (o = .start → s.phase = .idle ∧ s.result = .ok) ∧ (o = .read → s.phase = .decode) := by
  obtain ⟨hinv, rfl, hgoing, htrace⟩ := h
  rw [hnone, List.tail_nil, List.append_nil] at htrace
  have hrequest : s.request = none := by rw [← hinv.pending_head, hnone, List.head?_nil]
  rcases hinv.phase_of_request_none hrequest with hp | hp
  · obtain ⟨hstart, hok⟩ := hgoing.resolve_left (not_not_intro hp)
    exact ⟨htrace, fun _ => ⟨hp, hok⟩, fun hread => by simp [hread] at hstart⟩
  · have hread := hinv.decode_op hp
    exact ⟨htrace, fun hstart => by simp [hstart] at hread, fun _ => hp⟩

/-- An unexpected answer ends the command, and what was still to be issued behind its request never is (R127). -/
theorem State.OnCourse.step_fails {o : Op} {row : List Request} {s : State} (h : s.OnCourse o row) {q : Request}
    {qs : List Request} {r : Response} {es : List Event} (hpending : s.pending = q :: qs)
    (he : s.events = .answer r :: es) (hr : expects q r = false) :
    ∃ t, step s = .next t ∧ t.busTrace ++ qs = row ∧ t.phase = .idle ∧ t.result = .transportFault := by
  refine ⟨_, step_answer_unexpected he (h.inv.request_of_pending hpending) hr, ?_, rfl, rfl⟩
  rw [← h.trace, hpending]
  rfl

/-! ### The obligation -/

/-- A CTRL write of START or READ in `IDLE` is accepted (R100, R103, R104). -/
theorem step_accept {s : State} {o : Op} {v : Byte} {rest : List HostOp} {es : List Event} (hp : s.phase = .idle)
    (hh : s.host = .wr 0x00 v :: rest) (he : s.events = .host :: es)
    (hv : o = .start ∧ decodeCtrl v = .start ∨ o = .read ∧ decodeCtrl v = .read) :
    step s = .next
      (State.accept o { s with events := es, host := rest, hostLog := s.hostLog ++ [.wr 0x00 v] }) := by
  rw [step_ctrl_idle hh he hp]
  rcases hv with ⟨rfl, hv⟩ | ⟨rfl, hv⟩ <;> rw [hv]
  · exact exec_start_idle (by exact hp)
  · exact exec_read_idle (by exact hp)

/-- Settles O24: from the accept on the command is on its course, up to its last request or to the first unexpected answer. -/
theorem commandRequestSequences : Obligations.CommandRequestSequences := by
  intro s o v rest rs es hp hh he
  refine ⟨fun hcommand => ?_, fun hv => ?_⟩
  · have ho : o ≠ .none := by rcases hcommand with ⟨rfl, -⟩ | ⟨rfl, -⟩ <;> nofun
    have haccept := step_accept hp hh he hcommand
    have hcourse := State.accept_onCourse ho
      { s with events := rs.map .answer ++ es, host := rest, hostLog := s.hostLog ++ [.wr 0x00 v] }
    refine ⟨fun hlength hexpected => ?_, fun k hk hl hexpected hunexpected => ?_⟩
    · obtain ⟨t, hrun, ht, hleft, -⟩ := hcourse.run_answers rs.length rfl le_rfl hlength.le
        fun p hmem => hexpected p (List.mem_of_mem_take hmem)
      exact ⟨t, (run_succ_of_next haccept).trans hrun,
        ht.complete (hleft.trans (List.drop_eq_nil_of_le hlength.ge))⟩
    · obtain ⟨t, hrun, ht, hleft, het⟩ := hcourse.run_answers k rfl (by omega) hk.le hexpected
      rw [List.drop_eq_getElem_cons (by omega)] at het
      obtain ⟨u, hst, htrace, hidle, hresult⟩ :=
        ht.step_fails (hleft.trans (List.drop_eq_getElem_cons hk)) het hunexpected
      refine ⟨u, ?_, ?_, hidle, hresult⟩
      · rw [hl, run_succ_of_next haccept]
        exact (run_add_of_next hrun).trans (run_succ_of_next (n := 0) hst)
      · refine List.append_cancel_right (htrace.trans ?_)
        rw [List.append_assoc]
        exact congrArg (s.busTrace ++ ·) (List.take_append_drop _ _).symm
  · have hstep := step_ctrl_idle hh he hp
    rcases hv with hv | hv <;> rw [hv] at hstep
    · exact ⟨_, run_succ_of_next (n := 0) hstep, rfl⟩
    · exact ⟨_, run_succ_of_next (n := 0) (hstep.trans (exec_illegal_idle (by exact hp))), rfl⟩

end Sys2Proof.Machine
end

section
/-! PROOFS. The algebra of the CRC-8 (spec/42_scratchpad_crc.md R142 to R145, R149): a byte step is eight shifts of a linear feedback
register, applied to the XOR of remainder and data; the shift is linear, sends only zero to zero, and returns to 0x80 after 127. -/

namespace Sys2Proof.Machine

/-! ### The bit step -/

/-- The bit step of R142 with the data bit already added: the remainder shifts right, and its low bit adds the polynomial. -/
def crcShift (c : Byte) : Byte := c >>> 1 ^^^ if c.getLsbD 0 then crcPoly else 0x00

theorem and_one_eq_one_iff (x : Byte) : x &&& 0x01 = 1 ↔ x.getLsbD 0 = true := by
  have hlow : x &&& 0x01 = (BitVec.ofBool (x.getLsbD 0)).setWidth 8 := BitVec.and_one_eq_setWidth_ofBool_getLsbD
  rw [hlow]
  cases x.getLsbD 0 <;> decide

/-- The polynomial is added when the low bits of remainder and data differ. -/
theorem crc8Bit_eq (c d : Byte) :
    crc8Bit (c, d) = (c >>> 1 ^^^ (if (c ^^^ d).getLsbD 0 then crcPoly else 0x00), d >>> 1) := by
  simp only [crc8Bit, and_one_eq_one_iff]
  split
  · rfl
  · exact congrArg (·, d >>> 1) BitVec.xor_zero.symm

/-- The bit step shifts the XOR of remainder and data. -/
theorem crc8Bit_xor (c d : Byte) : (crc8Bit (c, d)).1 ^^^ (crc8Bit (c, d)).2 = crcShift (c ^^^ d) := by
  simp only [crc8Bit_eq, crcShift, BitVec.ushiftRight_xor_distrib]
  ac_rfl

theorem crcShift_xor (a b : Byte) : crcShift (a ^^^ b) = crcShift a ^^^ crcShift b := by
  have hpoly : ∀ p q : Bool, (if p ^^ q then crcPoly else 0x00) =
      (if p then crcPoly else 0x00) ^^^ (if q then crcPoly else 0x00) := by decide
  rw [crcShift, crcShift, crcShift, BitVec.ushiftRight_xor_distrib, BitVec.getLsbD_xor, hpoly]
  ac_rfl

/-- The top bit of the polynomial keeps a 1 that is shifted out (its constant term, R149(d)), so only zero shifts to zero. -/
theorem crcShift_eq_zero_iff (c : Byte) : crcShift c = 0x00 ↔ c = 0x00 := by
  refine ⟨fun h => ?_, by rintro rfl; rfl⟩
  have hhalf := congrArg BitVec.toNat (BitVec.xor_eq_zero_iff.mp h)
  have hlow : c.getLsbD 0 = decide (c.toNat % 2 = 1) := Nat.testBit_zero c.toNat
  rw [hlow, BitVec.toNat_ushiftRight, Nat.shiftRight_one] at hhalf
  apply BitVec.eq_of_toNat_eq
  by_cases hodd : c.toNat % 2 = 1
  · rw [if_pos (decide_eq_true hodd)] at hhalf
    bv_omega
  · rw [if_neg (by simpa using hodd)] at hhalf
    bv_omega

/-! ### The bits reversed -/

theorem reverse_ushiftRight_one (c : Byte) : (c >>> 1).reverse = c.reverse <<< 1 := by
  ext i hi
  simp only [BitVec.getElem_reverse, BitVec.getMsbD_ushiftRight, BitVec.getElem_shiftLeft, hi, decide_true,
    Bool.true_and]

theorem reverse_xor (a b : Byte) : (a ^^^ b).reverse = a.reverse ^^^ b.reverse := by
  ext i hi
  simp only [BitVec.getElem_reverse, BitVec.getMsbD_xor, BitVec.getElem_xor]

/-! ### Many bit steps -/

theorem iterate_crcShift_xor (n : Nat) (a b : Byte) :
    crcShift^[n] (a ^^^ b) = crcShift^[n] a ^^^ crcShift^[n] b := by
  induction n generalizing a b with
  | zero => rfl
  | succ n ih => rw [Function.iterate_succ_apply, crcShift_xor, ih]; rfl

theorem iterate_crcShift_eq_zero_iff (n : Nat) (c : Byte) : crcShift^[n] c = 0x00 ↔ c = 0x00 := by
  induction n with
  | zero => rfl
  | succ n ih => rw [Function.iterate_succ_apply', crcShift_eq_zero_iff, ih]

theorem crc8Bits_xor (n : Nat) (c d : Byte) :
    (crc8Bits n (c, d)).1 ^^^ (crc8Bits n (c, d)).2 = crcShift^[n] (c ^^^ d) := by
  induction n generalizing c d with
  | zero => rfl
  | succ n ih => rw [crc8Bits_succ, ih, crc8Bit_xor]; rfl

/-- Each bit step shifts the data byte by one (R142). -/
theorem crc8Bits_snd (n : Nat) (c d : Byte) : (crc8Bits n (c, d)).2 = d >>> n := by
  induction n generalizing c d with
  | zero => exact (BitVec.ushiftRight_zero d).symm
  | succ n ih => rw [crc8Bits_succ, crc8Bit_eq, ih, ← BitVec.shiftRight_add, Nat.add_comm]

/-- Eight bit steps use up the data byte (R143). -/
theorem crc8Byte_eq (c d : Byte) : crc8Byte c d = crcShift^[8] (c ^^^ d) := by
  rw [← crc8Bits_xor, crc8Bits_snd, BitVec.ushiftRight_eq_zero le_rfl, BitVec.xor_zero, crc8Byte]

/-! ### Sequences of bytes -/

/-- The byte step is linear in remainder and data together. -/
theorem crc8Byte_xor (c e a b : Byte) : crc8Byte (c ^^^ e) (a ^^^ b) = crc8Byte c a ^^^ crc8Byte e b := by
  rw [crc8Byte_eq, crc8Byte_eq, crc8Byte_eq, ← iterate_crcShift_xor]
  ac_rfl

theorem foldl_crc8Byte_zipWith_xor (c e : Byte) (a b : List Byte) (h : a.length = b.length) :
    (List.zipWith (· ^^^ ·) a b).foldl crc8Byte (c ^^^ e) = a.foldl crc8Byte c ^^^ b.foldl crc8Byte e := by
  induction a generalizing b c e with
  | nil => cases b with
    | nil => rfl
    | cons y b => cases h
  | cons x a ih => cases b with
    | nil => cases h
    | cons y b =>
      simp only [List.zipWith_cons_cons, List.foldl_cons, crc8Byte_xor]
      exact ih _ _ b (Nat.succ.inj h)

/-- What is added to the remainder is shifted by every bit that follows. -/
theorem foldl_crc8Byte_xor (c e : Byte) (bs : List Byte) :
    bs.foldl crc8Byte (c ^^^ e) = bs.foldl crc8Byte c ^^^ crcShift^[8 * bs.length] e := by
  induction bs generalizing c e with
  | nil => rfl
  | cons b bs ih =>
    have hstep : crc8Byte (c ^^^ e) b = crc8Byte c b ^^^ crcShift^[8] e := by
      rw [crc8Byte_eq, crc8Byte_eq, ← iterate_crcShift_xor]; ac_rfl
    rw [List.foldl_cons, List.foldl_cons, hstep, ih, ← Function.iterate_add_apply, List.length_cons, Nat.mul_succ]

/-- What is added to a byte is shifted by every bit from that byte on. -/
theorem foldl_crc8Byte_set_xor (c e : Byte) (bs : List Byte) (i : Nat) (h : i < bs.length) :
    (bs.set i (bs[i] ^^^ e)).foldl crc8Byte c = bs.foldl crc8Byte c ^^^ crcShift^[8 * (bs.length - i)] e := by
  induction bs generalizing c i with
  | nil => cases h
  | cons b bs ih => cases i with
    | zero =>
      have hstep : crc8Byte c (b ^^^ e) = crc8Byte (c ^^^ e) b := by
        rw [crc8Byte_eq, crc8Byte_eq]; ac_rfl
      exact (congrArg (bs.foldl crc8Byte) hstep).trans (foldl_crc8Byte_xor c e (b :: bs))
    | succ i =>
      simp only [List.getElem_cons_succ, List.set_cons_succ, List.foldl_cons, List.length_cons, Nat.add_sub_add_right]
      exact ih _ i (Nat.lt_of_succ_lt_succ h)

/-! ### Flipped bits -/

/-- Bit `j` is the top bit, shifted down to it. -/
theorem one_shiftLeft_eq_iterate_crcShift (j : Fin 8) : 1#8 <<< j.val = crcShift^[7 - j.val] 0x80 := by
  decide +revert

/-- A flipped bit adds to the residue the top bit, shifted by all the bits behind the flipped one. -/
theorem crc8_flipBit (sp : Vector Byte 9) (i : Fin 9) (j : Fin 8) :
    crc8 (flipBit sp i j).toList = crc8 sp.toList ^^^ crcShift^[79 - (8 * i.val + j.val)] 0x80 := by
  have hset : (flipBit sp i j).toList =
      sp.toList.set i (sp.toList[i.val]'(by simp) ^^^ 1#8 <<< j.val) := by
    rw [flipBit, Vector.toList_set, Vector.getElem_toList]; rfl
  have hbits : 8 * (9 - i.val) + (7 - j.val) = 79 - (8 * i.val + j.val) := by omega
  rw [hset, crc8, foldl_crc8Byte_set_xor, Vector.length_toList, one_shiftLeft_eq_iterate_crcShift,
    ← Function.iterate_add_apply, hbits, crc8]

/-- The period divides the prime 127, and 0x80 is no fixed point. -/
theorem minimalPeriod_crcShift : Function.minimalPeriod crcShift 0x80 = 127 := by
  have hprime : Fact (Nat.Prime 127) := ⟨by norm_num⟩
  have hperiod : crcShift^[127] 0x80 = 0x80 := by decide +kernel
  exact Function.minimalPeriod_eq_prime hperiod (show crcShift 0x80 ≠ 0x80 by decide)

/-! ### Validity -/

theorem validScratchpad_iff (sp : Vector Byte 9) : validScratchpad sp = true ↔ crc8 sp.toList = 0x00 := beq_iff_eq

theorem validScratchpad_eq_false_iff (sp : Vector Byte 9) : validScratchpad sp = false ↔ crc8 sp.toList ≠ 0x00 :=
  beq_eq_false_iff_ne

/-! ### The obligations -/

/-- Settles O29: the bits reversed, the shift turns over and the polynomial is 0x31. -/
theorem bitStepIsTheReflectedPolynomial : Obligations.BitStepIsTheReflectedPolynomial := by
  intro c d
  rw [crc8Bit_eq, BitVec.getLsbD_xor, reverse_xor, reverse_ushiftRight_one]
  refine ⟨congrArg (c.reverse <<< 1 ^^^ ·) ?_, rfl⟩
  cases c.getLsbD 0 <;> cases d.getLsbD 0 <;> rfl

/-- Settles O30: the byte step is linear, and so is the fold from `CRC_INIT`, which is zero. -/
theorem crcIsLinear : Obligations.CrcIsLinear :=
  fun a b h => foldl_crc8Byte_zipWith_xor crcInit crcInit a b h

/-- Settles O31: the last byte step shifts the XOR of the CRC before it and the byte, and only zero shifts to zero. -/
theorem appendedChecksumGivesZero : Obligations.AppendedChecksumGivesZero := by
  intro m c
  rw [crc8_concat, crc8Byte_eq, iterate_crcShift_eq_zero_iff]
  exact BitVec.xor_eq_zero_iff.trans eq_comm

/-- Settles O32: the residue is the flipped bit, shifted, and only zero shifts to zero. -/
theorem singleBitFlipsAreDetected : Obligations.SingleBitFlipsAreDetected := by
  intro sp i j hvalid
  rw [validScratchpad_iff] at hvalid
  rw [validScratchpad_eq_false_iff, crc8_flipBit, hvalid, zero_xor, ne_eq, iterate_crcShift_eq_zero_iff]
  decide

/-- Settles O33: the two flipped bits cancel only if their shifts agree modulo 127, which among 72 bits is the same bit. -/
theorem doubleBitFlipsAreDetected : Obligations.DoubleBitFlipsAreDetected := by
  intro sp i k j l hne hvalid
  rw [validScratchpad_iff] at hvalid
  rw [validScratchpad_eq_false_iff, crc8_flipBit, crc8_flipBit, hvalid, zero_xor]
  intro hcancel
  have hsame : 79 - (8 * i.val + j.val) = 79 - (8 * k.val + l.val) :=
    (Function.iterate_eq_iterate_iff_of_lt_minimalPeriod (by rw [minimalPeriod_crcShift]; omega)
      (by rw [minimalPeriod_crcShift]; omega)).mp (BitVec.xor_eq_zero_iff.mp hcancel)
  have hbyte : i = k := Fin.ext (by omega)
  have hbit : j = l := Fin.ext (by omega)
  exact hne (Prod.ext hbyte hbit)

end Sys2Proof.Machine
end

section
/-! PROOFS. The scratchpad reader (spec/42_scratchpad_crc.md R141, R145 to R148, R150): the receive step and its frame, the check
step, and the residue of the bytes received. -/

namespace Sys2Proof.Machine

/-! ### The receive step -/

theorem exec_tRead_data {s : State} (hp : s.phase = .rx) (b : Byte) :
    exec (.tRead (.data b)) s = .next (s.receive b) := by
  simp [exec, execTRead, hp]

theorem expects_tRead_eq_false {r : Response} (h : ∀ b, r ≠ .data b) : expects .tRead r = false :=
  Bool.eq_false_iff.mpr fun hdata => (expects_tRead_eq_true hdata).elim h

/-- A byte before the ninth asks for the next one (R141). -/
theorem State.receive_of_lt_eight {s : State} (hp : s.phase = .rx) (b : Byte) (hn : s.rxcnt.toNat < 8) :
    s.receive b =
      { s with
        sp := s.sp.set s.rxcnt.toNat b, crc := crc8Byte s.crc b, rxcnt := s.rxcnt + 1
        busTrace := s.busTrace ++ [.tRead] } := by
  have hcount : s.rxcnt + 1 ≠ 9 := by bv_omega
  rw [State.receive, if_neg hcount, sp_write _ _ (by omega)]
  simp [State.enter, State.request, hp]

/-- The address of `SP[RXCNT]` reads the byte received (R51, R141). -/
theorem State.memRead_receive_same (s : State) (b : Byte) (hn : s.rxcnt.toNat < 9) :
    (s.receive b).memRead (0x08 + s.rxcnt.toNat) = b := by
  rw [memRead_sp _ _ hn]
  simp only [State.receive_sp, Vector.getElem_setIfInBounds_self]

/-- Every address but those of STATUS, CRC, RXCNT, FSM and `SP[RXCNT]` reads as before (R51, R141). -/
theorem State.memRead_receive_of_ne (s : State) (b : Byte) {a : Nat}
    (ha : a ∉ [0x01, 0x04, 0x05, 0x07, 0x08 + s.rxcnt.toNat]) : (s.receive b).memRead a = s.memRead a := by
  simp only [List.mem_cons, List.not_mem_nil, or_false, not_or] at ha
  obtain ⟨hstatus, hcrc, hrxcnt, hfsm, hsp⟩ := ha
  by_cases h : 0x08 ≤ a ∧ a ≤ 0x10
  · obtain ⟨i, rfl⟩ := Nat.exists_eq_add_of_le h.1
    have hi : i < 9 := by omega
    rw [memRead_sp _ _ hi, memRead_sp _ _ hi]
    simp only [State.receive_sp]
    exact Vector.getElem_setIfInBounds_ne hi (by omega)
  · simp only [State.memRead, if_neg hstatus, if_neg hcrc, if_neg hrxcnt, if_neg hfsm, dif_neg h, State.receive_traw,
      State.receive_dlen, State.receive_disp]

/-! ### Nine bytes received -/

/-- The fold over the bytes received is the CRC of the whole scratchpad once there are nine (R148). -/
theorem State.ScratchInv.crc_of_nine {s : State} (h : s.ScratchInv) (hn : s.rxcnt = 9) : s.crc = crc8 s.sp.toList := by
  have hall : s.sp.toList.take 9 = s.sp.toList := List.take_of_length_le (by simp)
  rw [h.crc_received, hn]
  exact congrArg crc8 hall

/-- A bus stuck at zero gives residue zero (R150). -/
theorem crc8_replicate_zero (n : Nat) : crc8 (List.replicate n 0x00) = 0x00 := by
  induction n with
  | zero => rfl
  | succ n ih => rw [List.replicate_succ', crc8_concat, ih]; rfl

/-! ### The obligations -/

/-- Settles O58: a data byte in `RX` writes the receive registers, a failure only `STATE`, `DONE` and `RESULT`, and outside `RX`
nothing is written. -/
theorem receiveStepFrame : Obligations.ReceiveStepFrame := by
  intro s r hn
  by_cases hp : s.phase = .rx
  · cases hr : expects .tRead r with
    | true =>
      obtain ⟨b, rfl⟩ := expects_tRead_eq_true hr
      refine ⟨_, exec_tRead_data hp b, fun a => s.memRead_receive_of_ne b, ?_, rfl, rfl, rfl, rfl, rfl, rfl⟩
      rintro _ ⟨⟩ -
      exact s.memRead_receive_same b hn
    | false =>
      refine ⟨_, exec_tRead_unexpected hp hr, fun a ha => ?_, ?_, rfl, rfl, rfl, rfl, rfl, rfl⟩
      · simp only [List.mem_cons, not_or] at ha
        obtain ⟨hstatus, -, -, hfsm, -⟩ := ha
        exact (State.SameButControl.finish s .transportFault).memRead hstatus hfsm
      · rintro b rfl
        cases hr
  · exact ⟨s, exec_tRead_not_rx hp r, fun _ _ => rfl, fun _ _ h => absurd h hp, rfl, rfl, rfl, rfl, rfl, rfl⟩

/-- Settles O20: `receive` before the ninth byte, at the ninth, and `finish` for a response without data. -/
theorem receiveStep : Obligations.ReceiveStep := by
  intro s r hp
  refine ⟨by simp only [State.request, hp], ?_, ?_, fun hr => ⟨?_, fun h => ⟨h.crc_received, h.rest_zero⟩⟩⟩
  · rintro b hn rfl
    rw [exec_tRead_data hp, State.receive_of_lt_eight hp b hn]
  · rintro b hn rfl
    rw [exec_tRead_data hp, State.receive_of_eq_eight b hn]
  · exact exec_tRead_unexpected hp (expects_tRead_eq_false hr)

/-- Settles O26: the two outcomes of the check, and an engine step that is not enabled. -/
theorem checkStep : Obligations.CheckStep :=
  fun _ _ he => ⟨step_engine_decode he, step_engine_mismatch he,
    fun hp => (step_cons he).trans (congrArg Host.Outcome.next (if_neg hp))⟩

/-- Settles O27: with nine bytes received `CRC` is the residue that decides validity, and a mismatch is a nonzero one that left no
temperature. -/
theorem residueDecidesValidity : Obligations.ResidueDecidesValidity := by
  intro s hi h
  refine ⟨hi.decode_rxcnt, fun hn => ?_, fun hr => ?_⟩
  · have hcrc := h.crc_of_nine hn
    exact ⟨hcrc, by rw [validScratchpad_iff, hcrc]⟩
  · obtain ⟨-, hn, hne⟩ := hi.mismatch hr
    have hcrc := h.crc_of_nine hn
    have htvalid : s.tvalid = false := by
      rw [Bool.eq_false_iff, ne_eq, hi.tvalid_iff, hr]
      rintro ⟨⟨⟩, -⟩
    obtain ⟨htraw, hdlen, hdisp⟩ := hi.no_temperature htvalid
    exact ⟨htvalid, htraw, hdlen, hdisp, hn, hcrc, hne, by rwa [validScratchpad_eq_false_iff, ← hcrc]⟩

/-- Settles O28: bytes of zero leave the remainder at zero; the other values are computed. -/
theorem crcCornerCases : Obligations.CrcCornerCases := by
  have hzeros : crc8 (List.replicate 9 0x00) = 0x00 := crc8_replicate_zero 9
  have hzero_text : ∀ mode, numberText mode (s16 0x0000) = [0x30, 0x2E, 0x30] := by
    intro mode
    cases mode <;> decide
  refine ⟨hzeros, (validScratchpad_iff _).mpr hzeros, by decide, hzero_text, ?_⟩
  decide +kernel

end Sys2Proof.Machine
end

section
/-! PROOFS. The temperature decoder (spec/43_temperature_decode.md): the signed value, rounding to tenths, the decimal form by way
of `Nat.digits`, the length of the text, and the decode step. -/

namespace Sys2Proof.Machine

/-! ### The signed value (R160, R161, R162) -/

theorem rawWord_toNat (sp : Vector Byte 9) : (rawWord sp).toNat = sp[1].toNat * 256 + sp[0].toNat := by
  have hlow := sp[0].isLt
  rw [rawWord, BitVec.toNat_append, ← Nat.shiftLeft_add_eq_or_of_lt hlow, Nat.shiftLeft_eq]

theorem s16_eq_toInt (w : RawWord) : s16 w = w.toInt := by
  rw [s16, BitVec.toInt_eq_toNat_cond]
  split_ifs <;> omega

theorem s16_bounds (w : RawWord) : -32768 ≤ s16 w ∧ s16 w ≤ 32767 := by
  have hlt := w.isLt
  unfold s16
  split <;> omega

theorem abs_temperature (w : RawWord) : |temperature w| = ((s16 w).natAbs : Rat) / 16 := by
  rw [temperature, abs_div, Nat.cast_natAbs, Int.cast_abs, abs_of_pos (by norm_num : (0 : Rat) < 16)]

/-! ### Rounding to tenths (R164) -/

/-- Eight times the tenths is within four of `5 |s|`, the exact value in eighths of a tenth. -/
theorem tenths_nearest (mode : TieMode) (s : Int) :
    8 * tenths mode s ≤ 5 * s.natAbs + 4 ∧ 5 * s.natAbs ≤ 8 * tenths mode s + 4 := by
  cases mode with
  | halfAway =>
    simp only [tenths]
    split_ifs <;> omega
  | halfEven =>
    simp only [tenths]
    split_ifs <;> omega

theorem tenths_halfAway_of_tie {s : Int} (h : s.natAbs % 8 = 4) : 8 * tenths .halfAway s = 5 * s.natAbs + 4 := by
  have htie : 5 * s.natAbs % 8 = 4 := by omega
  simp only [tenths, htie, lt_irrefl, if_true, if_false]
  omega

theorem tenths_halfEven_of_tie {s : Int} (h : s.natAbs % 8 = 4) : tenths .halfEven s % 2 = 0 := by
  have htie : 5 * s.natAbs % 8 = 4 := by omega
  simp only [tenths, htie, lt_irrefl, if_true, if_false]
  omega

/-- The degrees shown before the point are below `n` exactly when the temperature's magnitude is: rounding never carries over
to a whole number of degrees, since the last step under one is 15/16. -/
theorem tenths_div_ten_lt_iff (mode : TieMode) (s : Int) (n : Nat) : tenths mode s / 10 < n ↔ s.natAbs < 16 * n := by
  obtain ⟨hle, hge⟩ := tenths_nearest mode s
  omega

/-- A value below zero shows at least one tenth (R170). -/
theorem tenths_pos_of_neg (mode : TieMode) {s : Int} (h : s < 0) : 1 ≤ tenths mode s := by
  obtain ⟨-, hge⟩ := tenths_nearest mode s
  omega

/-! ### The decimal form (R165) -/

theorem digit_toNat {d : Nat} (h : d < 10) : (digit d).toNat = 0x30 + d := by
  rw [digit, BitVec.toNat_ofNat, Nat.mod_eq_of_lt (by omega)]

theorem digit_eq_zero_iff {d : Nat} (h : d < 10) : digit d = 0x30 ↔ d = 0 := by
  have hcode := digit_toNat h
  refine ⟨fun hzero => ?_, fun hzero => hzero ▸ rfl⟩
  rw [hzero] at hcode
  exact (Nat.add_left_cancel hcode).symm

/-- With enough fuel the loop puts the digits of a positive number, the greatest place first, before `acc`. -/
theorem decimalAux_eq_digits {fuel n : Nat} (acc : List Byte) (hn : n ≠ 0) (hfuel : n < fuel) :
    decimalAux fuel n acc = (Nat.digits 10 n).reverse.map digit ++ acc := by
  induction fuel generalizing n acc with
  | zero => omega
  | succ fuel ih =>
    unfold decimalAux
    split
    · next hlt => simp [Nat.digits_of_lt 10 n hn hlt]
    · next hge =>
      rw [ih _ (by omega) (by omega), Nat.digits_def' (by norm_num) (Nat.pos_of_ne_zero hn)]
      simp

theorem decimal_eq_digits {n : Nat} (hn : n ≠ 0) : decimal n = (Nat.digits 10 n).reverse.map digit :=
  (decimalAux_eq_digits [] hn n.lt_succ_self).trans (List.append_nil _)

@[simp] theorem decimal_zero : decimal 0 = [0x30] := rfl

/-- Every byte of the decimal form is the ASCII code of a digit. -/
theorem mem_decimal {n : Nat} {b : Byte} (h : b ∈ decimal n) : 0x30 ≤ b.toNat ∧ b.toNat ≤ 0x39 := by
  by_cases hn : n = 0
  · subst hn
    obtain rfl := List.mem_singleton.mp h
    decide
  · rw [decimal_eq_digits hn, List.mem_map] at h
    obtain ⟨d, hd, rfl⟩ := h
    have hlt : d < 10 := Nat.digits_lt_base (by norm_num) (List.mem_reverse.mp hd)
    rw [digit_toNat hlt]
    omega

theorem decimalValue_concat (bs : List Byte) (b : Byte) :
    decimalValue (bs ++ [b]) = 10 * decimalValue bs + (b.toNat - 0x30) := by
  simp [decimalValue]

/-- The value of ASCII digits is `Nat.ofDigits` of the digits. -/
theorem decimalValue_map_digit (ds : List Nat) (h : ∀ d ∈ ds, d < 10) :
    decimalValue (ds.reverse.map digit) = Nat.ofDigits 10 ds := by
  induction ds with
  | nil => rfl
  | cons d ds ih =>
    have hd : d < 10 := h d List.mem_cons_self
    have htail := ih fun x hx => h x (List.mem_cons_of_mem d hx)
    rw [List.reverse_cons, List.map_append, List.map_singleton, decimalValue_concat, htail, digit_toNat hd,
      Nat.ofDigits_cons, Nat.add_sub_cancel_left, Nat.add_comm]

@[simp] theorem decimalValue_decimal (n : Nat) : decimalValue (decimal n) = n := by
  by_cases hn : n = 0
  · subst hn
    rfl
  · rw [decimal_eq_digits hn, decimalValue_map_digit _ fun _ => Nat.digits_lt_base (by norm_num), Nat.ofDigits_digits]

/-- No leading zero: the first byte is the last of `Nat.digits`. -/
theorem decimal_head?_ne_zero {n : Nat} (hn : n ≠ 0) : (decimal n).head? ≠ some 0x30 := by
  have hne : Nat.digits 10 n ≠ [] := Nat.digits_ne_nil_iff_ne_zero.mpr hn
  have hlast := Nat.getLast_digit_ne_zero 10 hn
  have hlt := Nat.digits_lt_base (by norm_num) (List.getLast_mem hne)
  rw [decimal_eq_digits hn, List.head?_map, List.head?_reverse, List.getLast?_eq_some_getLast hne, Option.map_some]
  exact fun h => hlast ((digit_eq_zero_iff hlt).mp (Option.some.inj h))

/-- The decimal form has at most `k + 1` bytes exactly when the number is below `10 ^ (k + 1)`. -/
theorem decimal_length_le_iff (n k : Nat) : (decimal n).length ≤ k + 1 ↔ n < 10 ^ (k + 1) := by
  by_cases hn : n = 0
  · subst hn
    simp
  · rw [← Nat.digits_length_le_iff (by norm_num), decimal_eq_digits hn, List.length_map, List.length_reverse]

theorem decimal_ne_nil (n : Nat) : decimal n ≠ [] := by
  intro h
  have hzero := decimalValue_decimal n
  rw [h] at hzero
  obtain rfl : 0 = n := hzero
  cases h

theorem decimal_length_pos (n : Nat) : 0 < (decimal n).length :=
  List.length_pos_iff.mpr (decimal_ne_nil n)

/-! ### The number text and its length (R165, R166, R167, R170, R171) -/

theorem numberText_of_neg (mode : TieMode) {s : Int} (h : s < 0) :
    numberText mode s = 0x2D :: (decimal (tenths mode s / 10) ++ [0x2E, digit (tenths mode s % 10)]) := by
  simp [numberText, h]

theorem numberText_of_nonneg (mode : TieMode) {s : Int} (h : 0 ≤ s) :
    numberText mode s = decimal (tenths mode s / 10) ++ [0x2E, digit (tenths mode s % 10)] := by
  simp [numberText, not_lt.mpr h]

/-- The degrees take at most `k + 1` digits exactly when `|s|` is below `16 * 10 ^ (k + 1)`. -/
theorem degrees_length_le_iff (mode : TieMode) (s : Int) (k : Nat) :
    (decimal (tenths mode s / 10)).length ≤ k + 1 ↔ s.natAbs < 16 * 10 ^ (k + 1) := by
  rw [decimal_length_le_iff, tenths_div_ten_lt_iff]

/-- The table of R171, for every value a raw word can have. -/
theorem text_length_by_range (mode : TieMode) {s : Int} (hlow : -32768 ≤ s) (hhigh : s ≤ 32767) :
    (text mode s).length =
      if s ≤ -16000 then 13 else if s ≤ -1600 then 12 else if s ≤ -160 then 11
      else if s ≤ -1 then 10 else if s ≤ 159 then 9 else if s ≤ 1599 then 10
      else if s ≤ 15999 then 11 else 12 := by
  have hpos := decimal_length_pos (tenths mode s / 10)
  have hone := degrees_length_le_iff mode s 0
  have htwo := degrees_length_le_iff mode s 1
  have hthree := degrees_length_le_iff mode s 2
  have hfour := degrees_length_le_iff mode s 3
  norm_num at hone htwo hthree hfour
  rw [text_length, numberText_length]
  split_ifs <;> omega

theorem text_length_ge (mode : TieMode) (s : Int) : 9 ≤ (text mode s).length := by
  have hpos := decimal_length_pos (tenths mode s / 10)
  rw [text_length, numberText_length]
  omega

theorem numberText_ne_minus_zero (mode : TieMode) (s : Int) : numberText mode s ≠ [0x2D, 0x30, 0x2E, 0x30] := by
  intro h
  by_cases hs : s < 0
  · rw [numberText_of_neg mode hs, List.cons_inj_right] at h
    obtain ⟨hdegrees, htenth⟩ := List.append_inj' (t₂ := [0x2E, 0x30]) (s₂ := [0x30]) h rfl
    have hquot : tenths mode s / 10 = 0 := by rw [← decimalValue_decimal (tenths mode s / 10), hdegrees]; rfl
    have hrem : tenths mode s % 10 = 0 := (digit_eq_zero_iff (Nat.mod_lt _ (by norm_num))).mp (by simpa using htenth)
    have hpos := tenths_pos_of_neg mode hs
    omega
  · rw [numberText_of_nonneg mode (not_lt.mp hs)] at h
    obtain ⟨hdegrees, -⟩ := List.append_inj' (t₂ := [0x2E, 0x30]) (s₂ := [0x2D, 0x30]) h rfl
    have hminus : (0x2D : Byte) ∈ decimal (tenths mode s / 10) := by simp [hdegrees]
    exact absurd (mem_decimal hminus).1 (by decide)

/-! ### The decode step (R169) -/

theorem State.decodeAndFormat_of_overflow {cap : Nat} {s : State}
    (h : cap < (text s.cfg.tieMode (s16 (rawWord s.sp))).length) :
    s.decodeAndFormat cap = s.finish .formatOverflow := by
  rcases s.decodeAndFormat_cases cap with ⟨-, e⟩ | ⟨hle, -⟩
  · exact e
  · exact absurd h (not_lt.mpr hle)

theorem State.decodeAndFormat_of_fits {cap : Nat} {s : State}
    (h : (text s.cfg.tieMode (s16 (rawWord s.sp))).length ≤ cap) :
    s.decodeAndFormat cap = s.decodeAndFormat dispCap := by
  rcases s.decodeAndFormat_cases cap with ⟨hlt, -⟩ | ⟨-, e⟩
  · exact absurd h (not_le.mpr hlt)
  · rw [e, s.decodeAndFormat_dispCap]

/-- The engine's check never ends a READ with `FORMAT_OVERFLOW` (R167). -/
theorem State.checkStep_result_ne_formatOverflow {s : State} (hp : s.phase = .decode) :
    s.checkStep.result ≠ .formatOverflow := by
  rcases s.checkStep_cases with ⟨hne, -⟩ | ⟨-, -, e⟩ | ⟨-, -, e⟩
  · exact absurd hp hne
  · rw [e, State.finish_result]
    nofun
  · rw [e, s.decodeAndFormat_dispCap, State.finish_result]
    nofun

/-! ### The obligations -/

/-- Settles O34: the two bytes appended, and the value of a raw word over 16. -/
theorem rawWordAndSignedValue : Obligations.RawWordAndSignedValue := by
  refine ⟨rawWord_toNat, fun w => ?_⟩
  obtain ⟨hlow, hhigh⟩ := s16_bounds w
  have hlow' : (-32768 : Rat) ≤ s16 w := by exact_mod_cast hlow
  have hhigh' : (s16 w : Rat) ≤ 32767 := by exact_mod_cast hhigh
  refine ⟨s16_eq_toInt w, hlow, hhigh, ?_, ?_, ?_⟩ <;> rw [temperature] <;> linarith

/-- Settles O35: `tenths_nearest` over 80 is the bound in degrees. -/
theorem tenthsIsTheNearest : Obligations.TenthsIsTheNearest := by
  refine ⟨fun mode w => ?_, fun mode s => ?_⟩
  · obtain ⟨hle, hge⟩ := tenths_nearest mode (s16 w)
    have hle' : (8 * tenths mode (s16 w) : Rat) ≤ 5 * (s16 w).natAbs + 4 := by exact_mod_cast hle
    have hge' : (5 * (s16 w).natAbs : Rat) ≤ 8 * tenths mode (s16 w) + 4 := by exact_mod_cast hge
    rw [abs_temperature, abs_le]
    constructor <;> linarith
  · obtain ⟨hle, hge⟩ := tenths_nearest mode s
    exact ⟨hle, hge, by omega, fun h => ⟨tenths_halfAway_of_tie h, tenths_halfEven_of_tie h⟩⟩

/-- Settles O36: the decimal form is `Nat.digits` reversed and written in ASCII. -/
theorem decimalIsTheShortestForm : Obligations.DecimalIsTheShortestForm :=
  fun n => ⟨fun _ => mem_decimal, decimalValue_decimal n, decimal_ne_nil n, decimal_head?_ne_zero, decimal_zero⟩

/-- Settles O37: the two outcomes of the decode, the display read back byte by byte. -/
theorem decodeAndFormatStep : Obligations.DecodeAndFormatStep := by
  rintro cap s x - rfl
  refine ⟨State.decodeAndFormat_of_overflow, fun hfits => ?_⟩
  refine ⟨writeDisp s.disp 0 (text s.cfg.tieMode (s16 (rawWord s.sp))), ?_, dlen_text_toNat _ _, ?_, ?_⟩
  · rw [State.decodeAndFormat_of_fits hfits, s.decodeAndFormat_dispCap, State.finish]
  · intro j h hj
    rw [writeDisp_getElem, if_pos (by omega)]
    exact List.getD_eq_getElem _ _ h
  · intro j hj hle
    rw [writeDisp_getElem, if_neg (by omega)]

/-- Settles O38: `text_length_by_range`, and the sixteen texts computed from the digits of their degrees. -/
theorem textLengthByRange : Obligations.TextLengthByRange := by
  intro mode
  refine ⟨fun w => text_length_by_range mode (s16_bounds w).1 (s16_bounds w).2, ?_⟩
  cases mode <;> simp [numberText, tenths, decimal_eq_digits, digit]

/-- Settles O39: at least one digit before the point and at most four; a smaller capacity overflows. -/
theorem textAlwaysFits : Obligations.TextAlwaysFits := by
  refine ⟨fun mode w => ⟨text_length_ge mode _, text_length_le mode w⟩, fun mode => ?_,
    fun s => State.checkStep_result_ne_formatOverflow, fun cap s => State.decodeAndFormat_of_overflow⟩
  cases mode <;> simp [text, tempLabel, numberText, tenths, decimal_eq_digits, digit]

/-- Settles O40: a negative value has a tenth, and a nonnegative one has no sign. -/
theorem neverMinusZero : Obligations.NeverMinusZero :=
  fun mode s => ⟨tenths_pos_of_neg mode, numberText_ne_minus_zero mode s⟩

end Sys2Proof.Machine
end

section
/-! PROOFS. The exceptions family (spec/60_exceptions.md): which steps are refused, and which results a command ends with. -/

namespace Sys2Proof.Machine

/-! ### The refusals -/

/-- Every instruction answers a next state, in every state (R200). -/
theorem exec_answers (i : Instr) (s : State) : ∃ t, exec i s = .next t := by
  cases i with
  | tRead r => cases r <;> exact ⟨_, rfl⟩
  | _ => exact ⟨_, rfl⟩

theorem exec_ne_refused (i : Instr) (s : State) (r : Refusal) : exec i s ≠ .refused r := by
  obtain ⟨t, ht⟩ := exec_answers i s
  rw [ht]
  nofun

/-- A read is refused only outside the host space (R52). -/
theorem hostRead_refused {a : Nat} {s : State} {r : Refusal} (h : hostRead a s = .refused r) :
    r = .hostAddress a ∧ hostSpace ≤ a := by
  unfold hostRead at h
  split at h
  · cases h
  · next ha => exact ⟨(Host.Outcome.refused.inj h).symm, not_lt.mp ha⟩

/-- A write is refused only outside the host space: a CTRL write runs an instruction or is held (R52, R100). -/
theorem hostWrite_refused {a : Nat} {v : Byte} {rest : List HostOp} {s : State} {r : Refusal}
    (h : hostWrite a v rest s = .refused r) : r = .hostAddress a ∧ hostSpace ≤ a := by
  unfold hostWrite at h
  split at h
  · split at h
    · split at h
      · exact absurd h (exec_ne_refused _ _ r)
      · cases h
    · cases h
  · next ha => exact ⟨(Host.Outcome.refused.inj h).symm, not_lt.mp ha⟩

/-- The host's turn is refused only for a host address outside the space (R52). -/
theorem hostTurn_refused {s : State} {r : Refusal} (h : hostTurn s = .refused r) :
    ∃ a, r = .hostAddress a ∧ hostSpace ≤ a := by
  unfold hostTurn at h
  split at h
  · cases h
  · next a rest _ => exact ⟨a, hostRead_refused h⟩
  · next a v rest _ => exact ⟨a, hostWrite_refused h⟩
  all_goals cases h

/-- Only in `TX_FUNC` with `OP = NONE` is an answer refused (R78). -/
theorem answerTurn_refused {a : Response} {s : State} {r : Refusal} (h : answerTurn a s = .refused r) :
    s.phase = .txFunc ∧ s.op = .none := by
  unfold answerTurn at h
  split at h
  · next i _ => exact absurd h (exec_ne_refused i s r)
  · next hnone =>
    split at h
    · next hp =>
      refine ⟨hp, ?_⟩
      cases ho : s.op with
      | none => rfl
      | _ => simp [State.awaiting, hp, ho] at hnone
    · cases h

/-- What a refused step was: a host access outside the space, an answer with no request, or another driver's turn. -/
theorem step_refused {s : State} {r : Refusal} (h : step s = .refused r) :
    (∃ a, r = .hostAddress a ∧ hostSpace ≤ a) ∨ (s.phase = .txFunc ∧ s.op = .none) ∨
      (r = .secondDriver ∧ ∃ es, s.events = .secondDriver :: es) := by
  unfold step at h
  split at h
  · cases h
  · next e es he =>
    cases e with
    | host => exact .inl (hostTurn_refused h)
    | engine => cases h
    | answer a => exact .inr (.inl (answerTurn_refused (s := { s with events := es }) h))
    | reset => cases h
    | secondDriver => exact .inr (.inr ⟨(Host.Outcome.refused.inj h).symm, es, he⟩)

/-! ### The results -/

/-- How a command ended: the four results, each with the commands that can end with it (R201 to R205, R252). -/
theorem State.Inv.result_cases {s : State} (h : s.Inv) (hd : s.done = true) :
    (s.result = .ok ∧ s.op ≠ .none) ∨ (s.result = .checksumMismatch ∧ s.op = .read) ∨
      (s.result = .transportFault ∧ s.op ≠ .none) ∨ (s.result = .illegalCommand ∧ s.op = .none) := by
  cases hr : s.result with
  | none => simp [h.done_result.mpr hr] at hd
  | ok => rcases h.ok_op hr with ho | ho <;> simp [ho]
  | checksumMismatch => simp [(h.mismatch hr).1]
  | transportFault => simp [h.fault_op hr]
  | illegalCommand => simp [(h.illegal_op.mp hr).1]
  | formatOverflow => exact absurd hr h.no_overflow

/-! ### The obligations -/

/-- Settles O54: no instruction is refused, and the invariant excludes the one refused answer, in `TX_FUNC` with
`OP = NONE`. -/
theorem noErrorStopsTheBlock : Obligations.NoErrorStopsTheBlock := by
  refine ⟨exec_answers, fun _ r => (nomatch r), fun s r hi h => ?_⟩
  rcases step_refused h with haddress | ⟨hp, ho⟩ | hdriver
  · exact .inl haddress
  · have hbusy : s.phase ≠ .idle := by simp [hp]
    exact absurd ho (hi.busy_op hbusy)
  · exact .inr hdriver

/-- Settles O48: a done block is not busy, `result_cases` gives the results, and `tvalid_iff` the last clause. -/
theorem resultsOfEachCommand : Obligations.ResultsOfEachCommand := by
  intro s hi hd
  have hidle : s.phase = .idle := by
    by_contra hp
    simp [hi.busy_done hp] at hd
  refine ⟨hidle, fun ho => ?_, fun ho => ?_, fun ho => hi.illegal_op.mpr ⟨ho, hd⟩, hi.tvalid_iff.trans and_comm⟩
  · rcases hi.result_cases hd with ⟨hr, -⟩ | ⟨-, hread⟩ | ⟨hr, -⟩ | ⟨-, hnone⟩
    · exact .inl hr
    · cases ho.symm.trans hread
    · exact .inr hr
    · cases ho.symm.trans hnone
  · rcases hi.result_cases hd with ⟨hr, -⟩ | ⟨hr, -⟩ | ⟨hr, -⟩ | ⟨-, hnone⟩
    · exact .inl hr
    · exact .inr (.inl hr)
    · exact .inr (.inr hr)
    · cases ho.symm.trans hnone

end Sys2Proof.Machine
end

section
/-! PROOFS. Reset and hazards (spec/70_reset_and_hazards.md R240 to R242, R246, R250): the reset step, the wait for an answer, and
the end of a command in STATUS. -/

namespace Sys2Proof.Machine

/-! ### The reset step -/

/-- The reset step may be taken at any time (R240). -/
theorem step_reset {s : State} {es : List Event} (he : s.events = .reset :: es) :
    step s = .next (State.takeReset { s with events := es }) :=
  step_cons he

/-- STATUS after reset (R37, R240). -/
@[simp] theorem State.takeReset_statusWord (s : State) : s.takeReset.statusWord = 0x00 :=
  (by decide : State.reset.statusWord = 0x00)

/-! ### Waiting for an answer -/

/-- Only the outside agents' data differ between the two states, and a CTRL write that comes next is held (R100). -/
def State.Waits (s t : State) : Prop :=
  (∃ p l e, t = { s with host := p, hostLog := l, events := e }) ∧
    ∀ v rest, s.host = .wr 0x00 v :: rest → t.host = s.host

theorem State.Waits.moved_on (s : State) (es : List Event) : s.Waits { s with events := es } :=
  ⟨⟨_, _, _, rfl⟩, fun _ _ _ => rfl⟩

/-- While the block is busy the host's turn leaves it waiting (R53, R54, R100). -/
theorem hostTurn_waits {s t : State} (hbusy : s.phase ≠ .idle) (h : hostTurn s = .next t) : s.Waits t := by
  refine ⟨?_, fun v rest hh => ?_⟩
  · rcases hostTurn_command_or_stay h with ⟨_, _, _, hidle, _⟩ | ⟨p, l, rfl⟩
    · exact absurd hidle hbusy
    · exact ⟨p, l, s.events, rfl⟩
  · rw [hostTurn_ctrl_busy hh hbusy] at h
    rw [Host.Outcome.next.inj h]

/-- The engine's own step is enabled in `DECODE` only, where no request is outstanding (R120, R146). -/
theorem State.checkStep_of_request {s : State} (h : s.request.isSome) : s.checkStep = s := by
  have hdecode : s.phase ≠ .decode := fun hp => by simp [State.request_eq_none (.inr hp)] at h
  exact if_neg hdecode

/-- With a request outstanding only an answer or reset ends the wait (R121, R250). -/
theorem step_waits {s t : State} (hrequest : s.request.isSome) (hst : step s = .next t)
    (hanswer : ∀ r es, s.events ≠ .answer r :: es) (hreset : ∀ es, s.events ≠ .reset :: es) : s.Waits t := by
  rcases step_cases hst with ⟨-, rfl⟩ | ⟨es, -, hturn⟩ | ⟨es, -, rfl⟩ | ⟨r, es, he, -⟩ | ⟨es, he, -⟩
  · exact .moved_on t t.events
  · exact hostTurn_waits (s := { s with events := es }) (State.phase_ne_idle_of_request hrequest) hturn
  · rw [State.checkStep_of_request (s := { s with events := es }) hrequest]
    exact .moved_on s es
  · exact absurd he (hanswer r es)
  · exact absurd he (hreset es)

/-! ### The end of a command in STATUS -/

/-- The two low bits of STATUS are `DONE` and `BUSY` (R72). -/
theorem State.statusWord_low (s : State) :
    s.statusWord.extractLsb' 0 2 = BitVec.ofBool s.done ++ BitVec.ofBool s.busy := by
  unfold State.statusWord statusBits
  generalize s.result.code = code
  generalize s.tvalid = tvalid
  generalize s.done = done
  generalize s.busy = busy
  revert code tvalid done busy
  decide

/-! ### The obligations -/

/-- Settles O50: no move of the block writes the parameters. -/
theorem parametersNeverChange : Obligations.ParametersNeverChange :=
  fun _ _ => step_cfg

/-- Settles O53: a waiting block keeps the registers that `STATE`, the request and `BUSY` are read off. -/
theorem noAnswerNoProgress : Obligations.NoAnswerNoProgress := by
  intro s t hrequest hst hanswer hreset
  obtain ⟨⟨p, l, e, rfl⟩, hheld⟩ := step_waits hrequest hst hanswer hreset
  exact ⟨rfl, rfl, decide_eq_true (State.phase_ne_idle_of_request hrequest), hheld⟩

/-- Settles O42: the reset state is in `IDLE`, which has no request and drops a late response. -/
theorem resetStepFromAnyState : Obligations.ResetStepFromAnyState := by
  intro s es he
  refine ⟨_, step_reset he, rfl, rfl, rfl, State.takeReset_statusWord _, fun r es' hlate => ?_⟩
  rw [run_succ_of_next (n := 1) (step_reset he)]
  exact run_succ_of_next (n := 0) (step_answer_dropped hlate (.inl rfl))

/-- Settles O49: `DONE` and not `BUSY` is 0b10, and a running command has no result and no temperature. -/
theorem endOfCommandIsSeenInStatus : Obligations.EndOfCommandIsSeenInStatus := by
  refine fun s hi => ⟨?_, fun hp => ?_⟩
  · have hended : s.ended ↔ s.done = true ∧ s.busy = false := by simp [State.ended, State.busy, and_comm]
    rw [hended, memRead_status, s.statusWord_low]
    cases s.done <;> cases s.busy <;> decide
  · have hrun := hi.running hp
    exact ⟨hrun.result, hrun.tvalid, hrun.no_temperature⟩

end Sys2Proof.Machine
end

section
/-! PROOFS. The bounded end of a command (spec/70_reset_and_hazards.md R253): each answer takes at least one request off those
still to be answered, twelve at most, until none is left, and the engine's check ends what is then in `DECODE`. -/

namespace Sys2Proof.Machine

/-! ### How many answers a command needs -/

/-- A command has at most twelve requests (R128). -/
theorem commandRequests_length_le (c : Config) (o : Op) : (commandRequests c o).length ≤ 12 := by
  cases o with
  | none => exact Nat.zero_le 12
  | start => exact Nat.le_add_left 3 9
  | read => exact Nat.le_refl 12

theorem State.pending_length_le (s : State) : s.pending.length ≤ 12 := by
  have hrow := commandRequests_length_le s.cfg s.op
  unfold State.pending
  cases s.phase with
  | rx => rw [List.length_replicate]; exact (Nat.sub_le _ _).trans (by decide)
  | _ => simp only [List.length_tail, List.length_nil]; omega

/-! ### A command under way -/

/-- A command with this `OP` has been accepted, and runs or has ended. -/
structure State.UnderWay (o : Op) (s : State) : Prop where
  inv : s.Inv
  op_eq : s.op = o
  accepted : s.phase ≠ .idle ∨ s.done = true

/-- Every answer is consumed or dropped, and the first pending request, if there is one, is answered (R127, R131). -/
theorem State.UnderWay.step_answer {o : Op} {s : State} (h : s.UnderWay o) {r : Response} {es : List Event}
    (he : s.events = .answer r :: es) :
    ∃ t, step s = .next t ∧ t.UnderWay o ∧ t.events = es ∧ t.pending.length ≤ s.pending.length - 1 := by
  obtain ⟨hinv, hop, haccepted⟩ := h
  have hmoved : State.Inv { s with events := es } := hinv.outside _ _ _ _ _
  cases hq : s.request with
  | none =>
    have hpending : s.pending = [] := by rwa [← hinv.pending_head, List.head?_eq_none_iff] at hq
    refine ⟨_, step_answer_dropped he (hinv.phase_of_request_none hq), ⟨hmoved, hop, haccepted⟩, rfl, ?_⟩
    exact (congrArg List.length hpending).trans_le (Nat.zero_le _)
  | some q =>
    cases hr : expects q r with
    | false =>
      have hst := step_answer_unexpected he hq hr
      exact ⟨_, hst, ⟨step_keeps_inv hinv hst, hop, .inr rfl⟩, rfl, Nat.zero_le _⟩
    | true =>
      obtain ⟨t, hst, hproceeds⟩ := step_answer_expected he hq hr
      have ht : t.Inv := step_keeps_inv hinv hst
      have hgoing : t.phase ≠ .idle ∨ t.done = true := hproceeds.going.imp_right fun ⟨_, hok⟩ => by
        rw [← Bool.not_eq_false, ht.done_result, hok]; nofun
      refine ⟨t, hst, ⟨ht, hproceeds.op_eq.trans hop, hgoing⟩, hproceeds.events_eq, ?_⟩
      rw [hproceeds.pending_eq hmoved, List.length_tail]
      rfl

/-- With as many answers as requests are pending, nothing is left to be answered. -/
theorem State.UnderWay.run_answers {o : Op} (rs : List Response) {s : State} (h : s.UnderWay o) {es : List Event}
    (he : s.events = rs.map .answer ++ es) (hrs : s.pending.length ≤ rs.length) :
    ∃ t, run rs.length s = .next t ∧ t.UnderWay o ∧ t.events = es ∧ t.request = none := by
  induction rs generalizing s with
  | nil =>
    have hpending : s.pending = [] := List.eq_nil_of_length_eq_zero (Nat.le_zero.mp hrs)
    exact ⟨s, rfl, h, he, by rw [← h.inv.pending_head, hpending, List.head?_nil]⟩
  | cons r rs ih =>
    obtain ⟨t, hst, ht, het, hleft⟩ := h.step_answer he
    rw [List.length_cons, run_succ_of_next hst]
    exact ih ht het (hleft.trans (Nat.sub_le_of_le_add hrs))

/-- Where no request is outstanding the engine's step ends the command, or finds it ended (R146). -/
theorem State.UnderWay.step_engine {o : Op} {s : State} (h : s.UnderWay o) (hq : s.request = none) {es : List Event}
    (he : s.events = .engine :: es) : ∃ t, step s = .next t ∧ t.ended ∧ t.op = o ∧ t.events = es := by
  obtain ⟨hinv, hop, haccepted⟩ := h
  rcases hinv.phase_of_request_none hq with hp | hp
  · have hstay : State.checkStep { s with events := es } = { s with events := es } := if_neg (by simp [hp])
    have hdone : s.done = true := haccepted.resolve_left (not_not_intro hp)
    exact ⟨_, (step_cons he).trans (congrArg Host.Outcome.next hstay), ⟨hp, hdone⟩, hop, rfl⟩
  · by_cases hc : s.crc = 0x00
    · refine ⟨_, step_engine_decode he hp hc, ?_⟩
      rw [State.decodeAndFormat_dispCap]
      exact ⟨⟨rfl, rfl⟩, hop, rfl⟩
    · exact ⟨_, step_engine_mismatch he hp hc, ⟨rfl, rfl⟩, hop, rfl⟩

/-! ### The obligation -/

/-- Settles O55: twelve answers leave no request outstanding, and the engine's step ends the command. -/
theorem everyAnsweredCommandEnds : Obligations.EveryAnsweredCommandEnds := by
  intro s rs es hi hp hlength he
  have hunder : s.UnderWay s.op := ⟨hi, rfl, .inl hp⟩
  obtain ⟨t, hrun, ht, het, hq⟩ := hunder.run_answers rs he (s.pending_length_le.trans hlength.ge)
  obtain ⟨u, hst, hended, hop, heu⟩ := ht.step_engine hq het
  rw [hlength] at hrun
  exact ⟨u, (run_add_of_next hrun).trans (run_succ_of_next (n := 0) hst), hended, hop, heu⟩

end Sys2Proof.Machine
end

section
/-! PROOFS. The conversion premise (spec/70_reset_and_hazards.md R243 to R247), read off the host's record: what the record holds
when the stage is `started`, and when it is `ended`. -/

namespace Sys2Proof.Machine

/-! ### One record -/

/-- The record is no CTRL write of START or READ. -/
def HostRec.Quiet (r : HostRec) : Prop :=
  ∀ w, r = .wr 0x00 w → decodeCtrl w ≠ .start ∧ decodeCtrl w ≠ .read

/-- The ms a record waits. -/
def HostRec.waitedMs : HostRec → Nat
  | .waited ms => ms
  | .rd _ _ => 0
  | .wr _ _ => 0

theorem HostRec.quiet_rd (a : Nat) (v : Byte) : (HostRec.rd a v).Quiet := nofun

theorem HostRec.quiet_waited (ms : Nat) : (HostRec.waited ms).Quiet := nofun

theorem HostRec.quiet_wr {a : Nat} {v : Byte}
    (h : a = 0x00 → decodeCtrl v ≠ .start ∧ decodeCtrl v ≠ .read) : (HostRec.wr a v).Quiet := by
  rintro w ⟨⟩
  exact h rfl

/-- A write begins a conversion, clears the stage, gives the conversion up, or leaves the stage as it was (R243, R247). -/
theorem ConvStage.after_wr_cases (c : ConvStage) (a : Nat) (v : Byte) :
    (a = 0x00 ∧ decodeCtrl v = .start ∧ c.after (.wr a v) = .started) ∨
    c.after (.wr a v) = .noStart ∨ c.after (.wr a v) = .unfounded ∨
    (c.after (.wr a v) = c ∧ (HostRec.wr a v).Quiet) := by
  by_cases ha : a = 0x00
  · subst ha
    cases hv : decodeCtrl v with
    | start =>
      by_cases hc : c = .noStart
      · exact .inl ⟨rfl, rfl, by simp [ConvStage.after, hv, hc]⟩
      · exact .inr (.inr (.inl (by simp [ConvStage.after, hv, hc])))
    | read => exact .inr (.inl (by simp [ConvStage.after, hv]))
    | illegal =>
      by_cases hc : c = .started
      · exact .inr (.inr (.inl (by simp [ConvStage.after, hv, hc])))
      · exact .inr (.inr (.inr ⟨by simp [ConvStage.after, hv, hc], HostRec.quiet_wr (by simp [hv])⟩))
    | _ => exact .inr (.inr (.inr ⟨by simp [ConvStage.after, hv], HostRec.quiet_wr (by simp [hv])⟩))
  · exact .inr (.inr (.inr ⟨if_neg ha, HostRec.quiet_wr fun h => absurd h ha⟩))

/-- The stage `started` comes from a START, or was there before and the record is quiet. -/
theorem ConvStage.after_eq_started {c : ConvStage} {r : HostRec} (h : c.after r = .started) :
    (∃ v, r = .wr 0x00 v ∧ decodeCtrl v = .start) ∨ (c = .started ∧ r.Quiet) := by
  cases r with
  | wr a v =>
    rcases c.after_wr_cases a v with ⟨rfl, hv, -⟩ | hc | hc | ⟨hc, hquiet⟩
    · exact .inl ⟨v, rfl, hv⟩
    · cases h.symm.trans hc
    · cases h.symm.trans hc
    · obtain rfl : c = .started := hc.symm.trans h
      exact .inr ⟨rfl, hquiet⟩
  | rd a v =>
    refine .inr ⟨?_, HostRec.quiet_rd a v⟩
    cases c with
    | started => rfl
    | _ => cases h
  | waited ms =>
    refine .inr ⟨?_, HostRec.quiet_waited ms⟩
    cases c with
    | started => rfl
    | _ => cases h

/-- The stage `ended` comes from a STATUS read of 0x12 after a START, or was there before and the record is quiet. -/
theorem ConvStage.after_eq_ended {c : ConvStage} {r : HostRec} {n : Nat} (h : c.after r = .ended n) :
    (c = .started ∧ r = .rd 0x01 0x12 ∧ n = 0) ∨ ∃ m, c = .ended m ∧ r.Quiet ∧ m + r.waitedMs = n := by
  cases r with
  | wr a v =>
    rcases c.after_wr_cases a v with ⟨-, -, hc⟩ | hc | hc | ⟨hc, hquiet⟩
    · cases h.symm.trans hc
    · cases h.symm.trans hc
    · cases h.symm.trans hc
    · obtain rfl : c = .ended n := hc.symm.trans h
      exact .inr ⟨n, rfl, hquiet, rfl⟩
  | rd a v =>
    cases c with
    | started =>
      simp only [ConvStage.after] at h
      split_ifs at h with hend hok
      cases h
      exact .inl ⟨rfl, by rw [hend.1, hok], rfl⟩
    | ended m => exact .inr ⟨m, rfl, HostRec.quiet_rd a v, ConvStage.ended.inj h⟩
    | _ => cases h
  | waited ms =>
    cases c with
    | ended m => exact .inr ⟨m, rfl, HostRec.quiet_waited ms, ConvStage.ended.inj h⟩
    | _ => cases h

/-! ### The whole record -/

theorem convStage_concat (log : List HostRec) (r : HostRec) : convStage (log ++ [r]) = (convStage log).after r := by
  simp [convStage]

/-- The stage is `started` only if the record's last START or READ is a START. -/
theorem exists_start_of_convStage_started {log : List HostRec} (h : convStage log = .started) :
    ∃ (before during : List HostRec) (v : Byte),
      log = before ++ [.wr 0x00 v] ++ during ∧ decodeCtrl v = .start ∧ ∀ r ∈ during, r.Quiet := by
  induction log using List.reverseRecOn with
  | nil => cases h
  | append_singleton log r ih =>
    rw [convStage_concat] at h
    rcases ConvStage.after_eq_started h with ⟨v, rfl, hv⟩ | ⟨hc, hr⟩
    · exact ⟨log, [], v, by simp, hv, nofun⟩
    · obtain ⟨before, during, v, rfl, hv, hquiet⟩ := ih hc
      exact ⟨before, during ++ [r], v, by simp, hv,
        List.forall_mem_append.mpr ⟨hquiet, List.forall_mem_singleton.mpr hr⟩⟩

/-- The stage is `ended` only after a START, then a STATUS read of 0x12, with no START and no READ since; the stage counts the
ms waited after that read. -/
theorem exists_end_of_convStage_ended {log : List HostRec} {n : Nat} (h : convStage log = .ended n) :
    ∃ (before during after : List HostRec) (v : Byte),
      log = before ++ [.wr 0x00 v] ++ during ++ [.rd 0x01 0x12] ++ after ∧ decodeCtrl v = .start ∧
      (∀ r ∈ during ++ after, r.Quiet) ∧ (after.map HostRec.waitedMs).sum = n := by
  induction log using List.reverseRecOn generalizing n with
  | nil => cases h
  | append_singleton log r ih =>
    rw [convStage_concat] at h
    rcases ConvStage.after_eq_ended h with ⟨hc, rfl, rfl⟩ | ⟨m, hc, hr, rfl⟩
    · obtain ⟨before, during, v, rfl, hv, hquiet⟩ := exists_start_of_convStage_started hc
      exact ⟨before, during, [], v, by simp, hv, by simpa using hquiet, rfl⟩
    · obtain ⟨before, during, after, v, rfl, hv, hquiet, rfl⟩ := ih hc
      refine ⟨before, during, after ++ [r], v, by simp, hv, ?_, by simp⟩
      rw [← List.append_assoc]
      exact List.forall_mem_append.mpr ⟨hquiet, List.forall_mem_singleton.mpr hr⟩

/-! ### The obligation -/

/-- Settles O59: the premise is the stage `ended` with enough waited, which holds the START, the read and the waits. -/
theorem conversionPremiseNeedsTheWait : Obligations.ConversionPremiseNeedsTheWait := by
  rintro log ⟨ms, hstage, hms⟩
  obtain ⟨before, during, after, v, hlog, hv, hquiet, rfl⟩ := exists_end_of_convStage_ended hstage
  exact ⟨before, during, after, v, hlog, hv, fun w hw => hquiet _ hw w rfl, hms⟩

end Sys2Proof.Machine
end
